-- ==== Sys2Proof/Word.lean ====
section
/-! DEFINITION. The block's word types (R21, R40): registers are 64 bits, memory elements 8, 32 or 64 bits. -/

namespace Sys2Proof

/-- A register value, a CODE element or a NODE element (R21, R40). -/
abbrev Word := BitVec 64

/-- A TOK or FREQ element (R40). -/
abbrev Half := BitVec 32

/-- A SRC or DST element (R40). -/
abbrev Byte := BitVec 8

/-- A natural number as a register holds it, zero-extended (R103). -/
abbrev Word.ofNat (n : Nat) : Word := BitVec.ofNat 64 n

end Sys2Proof
end

