-- ==== Sys2Proof/Config.lean ====
section
/-! DEFINITION. What an instance of the block fixes (R5), the fixed constants (R6), and the free values
(R78, R79, R351, R352), which are constants with no body. -/

namespace Sys2Proof.Config

/-- The synthesis-time parameters of R5. TOK_CAP is derived from SRC_SIZE. -/
structure Params where
  srcSize : Nat
  dstSize : Nat
  nodeCap : Nat
  deriving DecidableEq, Repr

/-- TOK_CAP = SRC_SIZE + 1 (R5). -/
def Params.tokCap (p : Params) : Nat := p.srcSize + 1

/-- The constraints of R5. -/
abbrev Params.legal (p : Params) : Prop :=
  1 ≤ p.srcSize ∧ p.srcSize ≤ 2 ^ 32 - 1 ∧ 9 ≤ p.dstSize ∧ p.dstSize ≤ 2 ^ 40 ∧
    635 ≤ p.nodeCap ∧ p.nodeCap ≤ 1024

/-- The instance State.reset describes. NODE_CAP = 1024 is R5's default. DESIGN CHOICE (log 1): R5 leaves
SRC_SIZE and DST_SIZE open; 4096 is the size the programs of 95_test_vectors.md use. -/
def Params.default : Params := { srcSize := 4096, dstSize := 4096, nodeCap := 1024 }

/-- NMAX, the largest bit count of one write or read (R6). -/
def nMax : Nat := 57

/-- CODE_LEN_MAX, the longest code the CODE table holds (R6). -/
def codeLenMax : Nat := 56

/-- LEAF_BITS, the width of a serialized leaf symbol (R6, R111). -/
def leafBits : Nat := 9

/-- EOS, the end-of-stream symbol (R6). -/
def eos : Nat := 256

/-- LEN_MIN and LEN_MAX, the match length domain (R6). -/
def lenMin : Nat := 3
def lenMax : Nat := 258

/-- DIST_MAX, the largest encodable distance (R6). -/
def distMax : Nat := 65536

/-- The number of FREQ and of CODE elements: one for each 9-bit symbol (R40). -/
def symbols : Nat := 512

/-- FREE VALUE (log 3): what SRC element i holds while nothing has written it (R351, R79). -/
opaque srcFill : Nat → Byte
/-- FREE VALUES (log 3): what element i of each Engine-written memory holds while nothing has written it since
power-on (epoch 0) or since the epoch-th busy soft reset (R351, R352, R79). -/
opaque dstFill : Nat → Nat → Byte
opaque tokFill : Nat → Nat → Half
opaque freqFill : Nat → Nat → Half
opaque codeFill : Nat → Nat → Word
opaque nodeFill : Nat → Nat → Word

/-- FREE VALUE (log 3): what the k-th host read of Engine-written state while BUSY returns (R78). -/
opaque busyRead : Nat → Word

end Sys2Proof.Config
end

