-- ==== Sys2Proof/Syntax.lean ====
section
/-! DEFINITION. The abstract syntax: the instructions of spec/opcode_table.json, the block's memories and registers,
and the host program's statements (R117, R118). -/

namespace Sys2Proof

/-- One constructor per row of spec/opcode_table.json: the 20 commands of R101, whose operands are in ARG0 to ARG3,
and the stream symbols of R110, which the Engine executes in the decode loop of R295. -/
inductive Instr where
  /-- NOP (R142). -/
  | nop
  /-- BW_INIT (R161: ARG0 = DST offset). -/
  | bwInit
  /-- BW_BITS (R163: ARG0 = value, ARG1 = n). -/
  | bwBits
  /-- BW_FLUSH (R165). -/
  | bwFlush
  /-- BR_INIT (R167: ARG0 = start, ARG1 = end). -/
  | brInit
  /-- BR_BITS (R169: ARG0 = n). -/
  | brBits
  /-- LEN_ENC (R193: ARG0 = length). -/
  | lenEnc
  /-- LEN_DEC (R195: ARG0 = code). -/
  | lenDec
  /-- DIST_ENC (R197: ARG0 = distance). -/
  | distEnc
  /-- DIST_DEC (R199: ARG0 = code). -/
  | distDec
  /-- LZ_MATCH (R213: ARG0 = n). -/
  | lzMatch
  /-- FREQ_COUNT (R240). -/
  | freqCount
  /-- HUFF_BUILD (R242). -/
  | huffBuild
  /-- HUFF_CODES (R244). -/
  | huffCodes
  /-- HUFF_SERIALIZE (R246). -/
  | huffSerialize
  /-- HUFF_ENCODE (R248). -/
  | huffEncode
  /-- HUFF_DESERIALIZE (R271). -/
  | huffDeserialize
  /-- HUFF_DECODE_SYM (R273). -/
  | huffDecodeSym
  /-- COMPRESS (R290: ARG0 = n, ARG1 = dataType, ARG2 = auxWidth). -/
  | compress
  /-- DECOMPRESS (R294: ARG0 = m). -/
  | decompress
  /-- LIT: a literal byte (R110, R296). -/
  | lit (byte : Byte)
  /-- EOS: end of stream (R110, R297). -/
  | eos
  -- LEN_257 to LEN_285: length codes (R190, R298)
  | len257 | len258 | len259 | len260 | len261 | len262 | len263 | len264
  | len265 | len266 | len267 | len268 | len269 | len270 | len271 | len272
  | len273 | len274 | len275 | len276 | len277 | len278 | len279 | len280
  | len281 | len282 | len283 | len284 | len285
  -- DIST_300 to DIST_331: distance codes (R191, R298, R299)
  | dist300 | dist301 | dist302 | dist303 | dist304 | dist305 | dist306 | dist307
  | dist308 | dist309 | dist310 | dist311 | dist312 | dist313 | dist314 | dist315
  | dist316 | dist317 | dist318 | dist319 | dist320 | dist321 | dist322 | dist323
  | dist324 | dist325 | dist326 | dist327 | dist328 | dist329 | dist330 | dist331
  deriving DecidableEq, Repr

/-- The two instruction formats of spec/opcode_table.json: command words (R100) and stream symbols (R110). -/
inductive Format where
  | cmd64
  | sym9
  deriving DecidableEq, Repr

/-- The six memories (R40). -/
inductive MemId where
  | src | dst | tok | freq | code | node
  deriving DecidableEq, Repr

/-- The registers of the register file (R21), by name. -/
inductive Reg where
  | id | ctrl | status | errPos | errSym | cmd
  | arg0 | arg1 | arg2 | arg3
  | res0 | res1 | res2 | res3
  | cfgWindow | cfgMinMatch | cfgMaxMatch | cfgMaxChain | cfgLazyDiv
  | bwPos | bwAcc | bwCnt | bwTotal
  | brPos | brEnd | brAcc | brCnt
  | tokCount | treeRoot | treeNodes | treeValid | outLen
  deriving DecidableEq, Repr

/-- One statement of a host program: R117, and the pseudo-instructions of R118. -/
inductive Stmt where
  /-- wr NAME, v -/
  | wr (r : Reg) (v : Nat)
  /-- rd NAME -/
  | rd (r : Reg)
  /-- wm MEM[i], v -/
  | wm (m : MemId) (i v : Nat)
  /-- rm MEM[i] -/
  | rm (m : MemId) (i : Nat)
  /-- cmd MNEMONIC -/
  | cmd (i : Instr)
  /-- poll -/
  | poll
  /-- MNEMONIC a0, a1, … (R118) -/
  | call (i : Instr) (operands : List Nat)
  /-- ldb MEM, off, bytes (R118) -/
  | ldb (m : MemId) (off : Nat) (bytes : List Byte)
  /-- expect NAME, v (R118) -/
  | expect (r : Reg) (v : Nat)
  deriving DecidableEq, Repr

end Sys2Proof
end

