-- ==== Sys2Proof/Machine/AddressMap.lean ====
section
/-! DEFINITION. The host port's address map: register offsets (R21), region bases, element widths and counts (R40, R71),
and which element or register an access names (R72). -/

namespace Sys2Proof

/-- Element width in bytes (R71). -/
def MemId.width : MemId → Nat
  | .src | .dst => 1
  | .tok | .freq => 4
  | .code | .node => 8

/-- Element count (R40, R71). -/
def MemId.count (p : Config.Params) : MemId → Nat
  | .src => p.srcSize
  | .dst => p.dstSize
  | .tok => p.tokCap
  | .freq | .code => Config.symbols
  | .node => p.nodeCap

/-- Region base (R71). -/
def MemId.base : MemId → Nat
  | .freq => 0x00100000000
  | .code => 0x00200000000
  | .node => 0x00300000000
  | .tok => 0x10000000000
  | .src => 0x20000000000
  | .dst => 0x30000000000

def MemId.all : List MemId := [.src, .dst, .tok, .freq, .code, .node]

/-- The host-port address of element i (R71). -/
def elemAddr (m : MemId) (i : Nat) : Nat := m.base + m.width * i

/-- The offset of a register in the register region, whose base is 0 (R21, R71). -/
def Reg.offset : Reg → Nat
  | .id => 0x000 | .ctrl => 0x008 | .status => 0x010 | .errPos => 0x018 | .errSym => 0x020 | .cmd => 0x028
  | .arg0 => 0x030 | .arg1 => 0x038 | .arg2 => 0x040 | .arg3 => 0x048
  | .res0 => 0x050 | .res1 => 0x058 | .res2 => 0x060 | .res3 => 0x068
  | .cfgWindow => 0x080 | .cfgMinMatch => 0x088 | .cfgMaxMatch => 0x090 | .cfgMaxChain => 0x098 | .cfgLazyDiv => 0x0A0
  | .bwPos => 0x0C0 | .bwAcc => 0x0C8 | .bwCnt => 0x0D0 | .bwTotal => 0x0D8
  | .brPos => 0x0E0 | .brEnd => 0x0E8 | .brAcc => 0x0F0 | .brCnt => 0x0F8
  | .tokCount => 0x100 | .treeRoot => 0x108 | .treeNodes => 0x110 | .treeValid => 0x118 | .outLen => 0x120

def Reg.all : List Reg :=
  [.id, .ctrl, .status, .errPos, .errSym, .cmd, .arg0, .arg1, .arg2, .arg3, .res0, .res1, .res2, .res3,
   .cfgWindow, .cfgMinMatch, .cfgMaxMatch, .cfgMaxChain, .cfgLazyDiv, .bwPos, .bwAcc, .bwCnt, .bwTotal,
   .brPos, .brEnd, .brAcc, .brCnt, .tokCount, .treeRoot, .treeNodes, .treeValid, .outLen]

/-- The size of the register region in bytes (R71). -/
def regRegionSize : Nat := 0x1000

/-- What a well-formed host access names (R72). -/
inductive Target where
  /-- A register of R21's table. -/
  | reg (r : Reg)
  /-- A mapped offset that R21 does not list: it reads 0 and ignores writes. -/
  | reserved
  /-- One whole element. -/
  | elem (m : MemId) (i : Nat)
  deriving DecidableEq, Repr

/-- The element of memory m that an access of `bytes` bytes at `addr` names, if it names one whole element (R72). -/
def elemTarget (p : Config.Params) (addr bytes : Nat) (m : MemId) : Option Target :=
  if m.base ≤ addr ∧ bytes = m.width ∧ (addr - m.base) % m.width = 0 ∧ (addr - m.base) / m.width < m.count p
  then some (.elem m ((addr - m.base) / m.width)) else none

/-- What an access names, or none: a bus error (R72). -/
def accessTarget (p : Config.Params) (addr bytes : Nat) : Option Target :=
  if addr < regRegionSize then
    if bytes = 8 ∧ addr % 8 = 0 then
      match Reg.all.find? (fun r => r.offset == addr) with
      | some r => some (.reg r)
      | none => some .reserved
    else none
  else MemId.all.findSome? (elemTarget p addr bytes)

end Sys2Proof
end

