-- ==== Sys2Proof/WellFormed.lean ====
section
/-! DEFINITION. What makes a host program's statement well formed (R117, R118). An Instr has no ill-formed term: a
command has no operand field (R100) and LIT carries a byte. -/

namespace Sys2Proof

/-- The commands of R101, as opposed to the stream symbols of R110. -/
def Instr.isCommand : Instr → Bool
  | .nop | .bwInit | .bwBits | .bwFlush | .brInit | .brBits | .lenEnc | .lenDec | .distEnc | .distDec
  | .lzMatch | .freqCount | .huffBuild | .huffCodes | .huffSerialize | .huffEncode
  | .huffDeserialize | .huffDecodeSym | .compress | .decompress => true
  | _ => false

/-- The checks of a statement: values fit their register or element, indices lie in the memory, cmd names a command,
a call gives at most the four ARG operands, and ldb loads SRC or DST (R117, R118). -/
def Stmt.wf (p : Config.Params) : Stmt → Bool
  | .wr _ v => v < 2 ^ 64
  | .rd _ => true
  | .wm m i v => i < m.count p && v < 2 ^ (8 * m.width)
  | .rm m i => i < m.count p
  | .cmd i => i.isCommand
  | .poll => true
  | .call i ops => i.isCommand && ops.length ≤ 4 && ops.all (fun v => v < 2 ^ 64)
  | .ldb m off bytes => (m == .src || m == .dst) && off + bytes.length ≤ m.count p
  | .expect _ v => v < 2 ^ 64

end Sys2Proof
end

