-- ==== Sys2Proof/Decode.lean ====
section
/-! DEFINITION. Decoding and encoding. A command word is 64 bits (R100), which the host port carries as 8 bytes,
least significant first (R73); a stream symbol is 9 bits (R110, R111). Decoding is total and rejects by name. -/

namespace Sys2Proof

/-- Why a word is no instruction. -/
inductive Reject where
  /-- Bits 63:8 of a command word are not all 0 (R100, R102). -/
  | reservedBits
  /-- The OPCODE is not in R101 (R102). -/
  | unassignedOpcode
  /-- The symbol is 286 to 299 or 332 to 511 (R110). -/
  | unassignedSymbol
  /-- The value does not fit the 9 bits of a symbol (R110). -/
  | notASymbol
  /-- The bytes are not as many as the format has. -/
  | wrongLength
  deriving DecidableEq, Repr

/-- The command set, by OPCODE (R101). -/
def commandTable : List (Nat × Instr) :=
  [(0x00, .nop), (0x01, .bwInit), (0x02, .bwBits), (0x03, .bwFlush), (0x04, .brInit),
   (0x05, .brBits), (0x08, .lenEnc), (0x09, .lenDec), (0x0A, .distEnc), (0x0B, .distDec),
   (0x10, .lzMatch), (0x18, .freqCount), (0x19, .huffBuild), (0x1A, .huffCodes), (0x1B, .huffSerialize),
   (0x1C, .huffEncode), (0x20, .huffDeserialize), (0x21, .huffDecodeSym), (0x30, .compress), (0x31, .decompress)]

/-- The length symbols (R190). -/
def lengthSymbolTable : List (Nat × Instr) :=
  [(257, .len257), (258, .len258), (259, .len259), (260, .len260), (261, .len261), (262, .len262),
   (263, .len263), (264, .len264), (265, .len265), (266, .len266), (267, .len267), (268, .len268),
   (269, .len269), (270, .len270), (271, .len271), (272, .len272), (273, .len273), (274, .len274),
   (275, .len275), (276, .len276), (277, .len277), (278, .len278), (279, .len279), (280, .len280),
   (281, .len281), (282, .len282), (283, .len283), (284, .len284), (285, .len285)]

/-- The distance symbols (R191). -/
def distanceSymbolTable : List (Nat × Instr) :=
  [(300, .dist300), (301, .dist301), (302, .dist302), (303, .dist303), (304, .dist304), (305, .dist305),
   (306, .dist306), (307, .dist307), (308, .dist308), (309, .dist309), (310, .dist310), (311, .dist311),
   (312, .dist312), (313, .dist313), (314, .dist314), (315, .dist315), (316, .dist316), (317, .dist317),
   (318, .dist318), (319, .dist319), (320, .dist320), (321, .dist321), (322, .dist322), (323, .dist323),
   (324, .dist324), (325, .dist325), (326, .dist326), (327, .dist327), (328, .dist328), (329, .dist329),
   (330, .dist330), (331, .dist331)]

/-- The assigned symbols above the literals (R110). -/
def symbolTable : List (Nat × Instr) := (256, .eos) :: lengthSymbolTable ++ distanceSymbolTable

/-- The instruction a table gives a number. -/
def lookupInstr (table : List (Nat × Instr)) (k : Nat) : Option Instr :=
  (table.find? (fun row => row.1 == k)).map Prod.snd

/-- Decode a command word (R100 to R102). -/
def decodeCommand (w : Nat) : Except Reject Instr :=
  if w / 2 ^ 8 ≠ 0 then .error .reservedBits
  else match lookupInstr commandTable w with
    | some i => .ok i
    | none => .error .unassignedOpcode

/-- Decode a stream symbol (R110). -/
def decodeSymbol (sym : Nat) : Except Reject Instr :=
  if sym < 256 then .ok (.lit (BitVec.ofNat 8 sym))
  else if 512 ≤ sym then .error .notASymbol
  else match lookupInstr symbolTable sym with
    | some i => .ok i
    | none => .error .unassignedSymbol

/-- The number that bytes spell, the first the least significant (R73). -/
def natOfBytesLE : List Byte → Nat
  | [] => 0
  | b :: bs => b.toNat + 256 * natOfBytesLE bs

/-- A number as n bytes, the least significant first (R73). -/
def bytesLE : Nat → Nat → List Byte
  | 0, _ => []
  | n + 1, v => BitVec.ofNat 8 v :: bytesLE n (v / 256)

/-- The bytes a word of each format takes: 8 for a command word (R100), the whole bytes that hold 9 bits for a symbol. -/
def Format.bytes : Format → Nat
  | .cmd64 => 8
  | .sym9 => 2

/-- Decode the bytes of one word of a format. -/
def decode (f : Format) (bytes : List Byte) : Except Reject Instr :=
  if bytes.length ≠ f.bytes then .error .wrongLength
  else match f with
    | .cmd64 => decodeCommand (natOfBytesLE bytes)
    | .sym9 => decodeSymbol (natOfBytesLE bytes)

/-- The instruction the decoder reads from a table word: a row of at most 16 bits is a symbol (SYM9 has 9 bits, two
bytes), a wider one a command word (CMD64). -/
def decodeTableWord (nbits w : Nat) : Option Instr :=
  let f : Format := if nbits ≤ 16 then .sym9 else .cmd64
  match decode f (bytesLE f.bytes w) with
  | .ok i => if w < 2 ^ (8 * f.bytes) then some i else none
  | .error _ => none

/-- The format of an instruction (spec/opcode_table.json). -/
def Instr.format (i : Instr) : Format :=
  if commandTable.any (fun row => row.2 == i) then .cmd64 else .sym9

/-- The value of an instruction's word: OPCODE zero-extended for a command (R100, R101), the symbol for a stream
symbol (R110). -/
def Instr.wordValue : Instr → Nat
  | .nop => 0x00
  | .bwInit => 0x01
  | .bwBits => 0x02
  | .bwFlush => 0x03
  | .brInit => 0x04
  | .brBits => 0x05
  | .lenEnc => 0x08
  | .lenDec => 0x09
  | .distEnc => 0x0A
  | .distDec => 0x0B
  | .lzMatch => 0x10
  | .freqCount => 0x18
  | .huffBuild => 0x19
  | .huffCodes => 0x1A
  | .huffSerialize => 0x1B
  | .huffEncode => 0x1C
  | .huffDeserialize => 0x20
  | .huffDecodeSym => 0x21
  | .compress => 0x30
  | .decompress => 0x31
  | .lit b => b.toNat
  | .eos => 256
  | .len257 => 257
  | .len258 => 258
  | .len259 => 259
  | .len260 => 260
  | .len261 => 261
  | .len262 => 262
  | .len263 => 263
  | .len264 => 264
  | .len265 => 265
  | .len266 => 266
  | .len267 => 267
  | .len268 => 268
  | .len269 => 269
  | .len270 => 270
  | .len271 => 271
  | .len272 => 272
  | .len273 => 273
  | .len274 => 274
  | .len275 => 275
  | .len276 => 276
  | .len277 => 277
  | .len278 => 278
  | .len279 => 279
  | .len280 => 280
  | .len281 => 281
  | .len282 => 282
  | .len283 => 283
  | .len284 => 284
  | .len285 => 285
  | .dist300 => 300
  | .dist301 => 301
  | .dist302 => 302
  | .dist303 => 303
  | .dist304 => 304
  | .dist305 => 305
  | .dist306 => 306
  | .dist307 => 307
  | .dist308 => 308
  | .dist309 => 309
  | .dist310 => 310
  | .dist311 => 311
  | .dist312 => 312
  | .dist313 => 313
  | .dist314 => 314
  | .dist315 => 315
  | .dist316 => 316
  | .dist317 => 317
  | .dist318 => 318
  | .dist319 => 319
  | .dist320 => 320
  | .dist321 => 321
  | .dist322 => 322
  | .dist323 => 323
  | .dist324 => 324
  | .dist325 => 325
  | .dist326 => 326
  | .dist327 => 327
  | .dist328 => 328
  | .dist329 => 329
  | .dist330 => 330
  | .dist331 => 331

/-- The bytes of an instruction's word. -/
def encode (i : Instr) : List Byte := bytesLE i.format.bytes i.wordValue

end Sys2Proof
end

