-- ==== Sys2Proof/Machine/State.lean ====
section
/-! DEFINITION. The state of one LZH-CORE instance (R20) as plain data, the reasons a step can stop, and the power-on
state (R351). -/

namespace Sys2Proof.Machine

/-- The model's own fault. -/
inductive Fault where
  /-- The stuck state of a tree walk that does not end: TREE_VALID is set and the walk from `root` goes deeper than NODE
  has elements, so it meets an element again. Raised by HUFF_CODES and HUFF_SERIALIZE (and by COMPRESS through them).
  Safe: R35 lets TREE_VALID be 1 only over a complete tree, so no run reaches it (log 10). -/
  | endlessTreeWalk (root : Nat)
  deriving DecidableEq, Repr

/-- The reasons the model gives a step no meaning. -/
inductive Refusal where
  /-- An instruction of the table without a meaning. Raised by exec's arms alone; no arm raises it here. Safe. -/
  | notModelled (mnemonic : String)
  /-- A malformed host access: unmapped, partial, misaligned or of another width. Raised by step. Safe: R72 says "A
  model refuses such an access rather than giving it meaning" (log 9). -/
  | busError (addr bytes : Nat)
  deriving DecidableEq, Repr

/-- The error kinds of R320. -/
inductive EngineError where
  | endOfStream | malformedTree | synchronizationError | invalidBackReference | unsupportedSymbol
  | lengthMismatch | badArgument | capacityExceeded | noTree | codeTooLong | illegalCommand
  deriving DecidableEq, Repr

/-- Four registers: ARG0 to ARG3 (R28), RES0 to RES3 (R29), or the latched arguments (R47). -/
structure Quad where
  r0 : Word
  r1 : Word
  r2 : Word
  r3 : Word
  deriving DecidableEq, Repr

/-- STATUS (R24) less BUSY, which mirrors the phase (R47). `code` is ERRCODE: none is code 0 (R320). -/
structure Status where
  done : Bool
  err : Bool
  wdrop : Bool
  code : Option EngineError
  deriving DecidableEq, Repr

/-- The configuration registers (R32). -/
structure CfgRegs where
  window : Word
  minMatch : Word
  maxMatch : Word
  maxChain : Word
  lazyDiv : Word
  deriving DecidableEq, Repr

/-- BW_POS, BW_ACC, BW_CNT, BW_TOTAL (R30). -/
structure BitWriter where
  pos : Word
  acc : Word
  cnt : Word
  total : Word
  deriving DecidableEq, Repr

/-- BR_POS, BR_END, BR_ACC, BR_CNT (R31). -/
structure BitReader where
  pos : Word
  stop : Word
  acc : Word
  cnt : Word
  deriving DecidableEq, Repr

/-- TREE_ROOT, TREE_NODES, TREE_VALID (R35). -/
structure TreeRegs where
  root : Word
  nodes : Word
  valid : Bool
  deriving DecidableEq, Repr

/-- The Engine phase (R47). IDLE is BUSY = 0. A latched command that has not begun, and the decode loop of DECOMPRESS
(R295), are BUSY = 1 (log 4). -/
inductive Phase where
  | idle
  | latched
  | decoding
  deriving DecidableEq, Repr

/-- DECOMPRESS's own variables (R294): originalLength L, dataType and auxWidth as read, and the match length of R298 that
waits for its distance symbol (log 7). -/
structure DecodeVars where
  len : Nat
  dataType : Nat
  auxWidth : Nat
  pendingLen : Option Nat
  deriving DecidableEq, Repr

/-- One operation on the host port (R72): an address, a width in bytes, and the data of a write. -/
inductive PortOp where
  | read (addr bytes : Nat)
  | write (addr bytes : Nat) (data : Word)
  deriving DecidableEq, Repr

/-- Who moves next (R4; log 5): a host-port operation, the host polling STATUS (R117), or the Engine. -/
inductive Turn where
  | port (op : PortOp)
  | poll
  | engine
  deriving DecidableEq, Repr

/-- A memory: the elements written so far, as (index, element) pairs with indices strictly rising (R40; log 2). -/
abbrev Mem (w : Nat) := List (Nat × BitVec w)

/-- The state (R20). The last six fields are the model's own, and `params` holds the instance's parameters (log 1, 3, 5). -/
structure State where
  /-- CMD (R27). -/
  cmd : Word
  /-- ARG0 to ARG3 (R28). -/
  arg : Quad
  /-- RES0 to RES3 (R29). -/
  res : Quad
  /-- STATUS (R24). -/
  status : Status
  /-- ERR_POS (R25). -/
  errPos : Word
  /-- ERR_SYM (R26). -/
  errSym : Word
  /-- CFG_* (R32). -/
  cfg : CfgRegs
  /-- BW_* (R30). -/
  bw : BitWriter
  /-- BR_* (R31). -/
  br : BitReader
  /-- TOK_COUNT (R34). -/
  tokCount : Word
  /-- TREE_* (R35). -/
  tree : TreeRegs
  /-- OUT_LEN (R36). -/
  outLen : Word
  /-- SRC (R41). -/
  src : Mem 8
  /-- DST (R42). -/
  dst : Mem 8
  /-- TOK (R43). -/
  tok : Mem 32
  /-- FREQ (R44). -/
  freq : Mem 32
  /-- CODE (R45). -/
  code : Mem 64
  /-- NODE (R46). -/
  node : Mem 64
  /-- The Engine phase (R47). -/
  phase : Phase
  /-- latch.cmd (R47, R141). -/
  latchCmd : Word
  /-- latch.arg (R47, R141). -/
  latchArg : Quad
  /-- DECOMPRESS's variables (R294). -/
  dec : DecodeVars
  /-- The instance's parameters (R5). -/
  params : Config.Params
  /-- The turns to come. -/
  pending : List Turn
  /-- What the last host read returned. -/
  portData : Word
  /-- How many free values host reads have drawn (R78). -/
  draws : Nat
  /-- How many busy soft resets have made the Engine's memories unspecified (R352). -/
  ramEpoch : Nat
  deriving DecidableEq, Repr

def Quad.zero : Quad := { r0 := 0, r1 := 0, r2 := 0, r3 := 0 }

/-- DECOMPRESS's variables while no DECOMPRESS runs. -/
def DecodeVars.zero : DecodeVars := { len := 0, dataType := 0, auxWidth := 0, pendingLen := none }

/-- The power-on state of an instance (R351). Latches, DECOMPRESS's variables and the model's own fields: log 5, 13. -/
def State.powerOn (p : Config.Params) : State where
  cmd := 0
  arg := Quad.zero
  res := Quad.zero
  status := { done := false, err := false, wdrop := false, code := none }
  errPos := 0
  errSym := 0
  cfg := { window := 32768, minMatch := 3, maxMatch := 258, maxChain := 128, lazyDiv := 2 }
  bw := { pos := 0, acc := 0, cnt := 0, total := 0 }
  br := { pos := 0, stop := 0, acc := 0, cnt := 0 }
  tokCount := 0
  tree := { root := 0, nodes := 0, valid := false }
  outLen := 0
  src := []
  dst := []
  tok := []
  freq := []
  code := []
  node := []
  phase := .idle
  latchCmd := 0
  latchArg := Quad.zero
  dec := DecodeVars.zero
  params := p
  pending := []
  portData := 0
  draws := 0
  ramEpoch := 0

/-- The machine right after reset: the power-on state (R350, R351) of the instance log 1 names. -/
def State.reset : State := State.powerOn Config.Params.default

end Sys2Proof.Machine
end

