-- ==== Sys2Proof/Machine/Flags.lean ====
section
/-! DEFINITION. Every flag computation: STATUS and its fields (R24), the error codes (R320), and what accept (R141),
completion (R143), an error (R321) and a W1C write (R24) do to the flags. -/

namespace Sys2Proof.Machine

/-- STATUS.BUSY mirrors the Engine phase (R47). -/
def State.busy (s : State) : Bool := s.phase != .idle

/-- The values of ERRCODE (R320). -/
def errorCode : Option EngineError → Nat
  | none => 0
  | some .endOfStream => 1
  | some .malformedTree => 2
  | some .synchronizationError => 3
  | some .invalidBackReference => 4
  | some .unsupportedSymbol => 5
  | some .lengthMismatch => 6
  | some .badArgument => 7
  | some .capacityExceeded => 8
  | some .noTree => 9
  | some .codeTooLong => 10
  | some .illegalCommand => 11

/-- STATUS as the host reads it (R24): BUSY, DONE, ERR, WDROP in bits 0 to 3, ERRCODE in bits 15:8, the rest 0. -/
def State.statusWord (s : State) : Word :=
  Word.ofNat (s.busy.toNat + s.status.done.toNat * 2 + s.status.err.toNat * 4 + s.status.wdrop.toNat * 8
    + errorCode s.status.code * 2 ^ 8)

/-- The flags at accept: DONE, ERR and ERRCODE are cleared, WDROP is kept (R141). -/
def Status.accepted (f : Status) : Status := { f with done := false, err := false, code := none }

/-- The flags at a successful completion (R143). -/
def Status.succeeded (f : Status) : Status := { f with done := true, err := false, code := none }

/-- The flags at an error (R321). -/
def Status.failed (f : Status) (e : EngineError) : Status := { f with done := false, err := true, code := some e }

/-- A dropped write sets the sticky WDROP (R80). -/
def Status.dropped (f : Status) : Status := { f with wdrop := true }

/-- A host write to STATUS while BUSY = 0: a 1 in bit 3 clears WDROP, every other bit is ignored (R24). -/
def Status.hostWrite (f : Status) (v : Word) : Status := { f with wdrop := f.wdrop && !v.getLsbD 3 }

end Sys2Proof.Machine
end

