-- ==== Sys2Proof/Machine/Bits.lean ====
section
/-! DEFINITION. Bit strings, bit fields and byte order (R8, R74, R75). -/

namespace Sys2Proof.Machine

/-- v[lo + w - 1 : lo] (R8). -/
def bitField (v lo w : Nat) : Nat := v / 2 ^ lo % 2 ^ w

/-- Byte k of a little-endian integer: v[8k+7:8k] (R73, R74). -/
def byteOf (v k : Nat) : Nat := v / 2 ^ (8 * k) % 256

/-- val(s): the number whose binary digits, most significant first, are s (R8). -/
def valBits (bs : List Bool) : Nat := bs.foldl (fun a b => 2 * a + b.toNat) 0

/-- bits_n(v): v mod 2^n as n bits, most significant first (R8). -/
def bitsOf : Nat → Nat → List Bool
  | 0, _ => []
  | n + 1, v => (v / 2 ^ n % 2 == 1) :: bitsOf n v

/-- The first nb bytes of a c-bit accumulator a, most significant first (R162, R75). -/
def topBytes (a c nb : Nat) : List Byte :=
  (List.range nb).map (fun j => BitVec.ofNat 8 (a / 2 ^ (c - 8 * (j + 1))))

end Sys2Proof.Machine
end

