-- ==== Sys2Proof/Machine/Formats.lean ====
section
/-! DEFINITION. The element formats: token word (R104), CODE entry (R105), NODE entry (R106). -/

namespace Sys2Proof.Machine

/-- A token (R104): the symbol, its extra-bit count and its extra value. -/
structure Token where
  sym : Nat
  xbits : Nat
  xval : Nat
  deriving DecidableEq, Repr

/-- tok(s, e, v) (R104). -/
def Token.toWord (t : Token) : Half := BitVec.ofNat 32 (t.sym + t.xbits * 2 ^ 12 + t.xval * 2 ^ 16)

/-- The fields of a TOK element; bits 11:9 are ignored (R104). -/
def Token.ofWord (w : Half) : Token where
  sym := bitField w.toNat 0 9
  xbits := bitField w.toNat 12 4
  xval := bitField w.toNat 16 16

/-- A CODE entry (R105). -/
structure CodeEntry where
  valid : Bool
  len : Nat
  bits : Nat
  deriving DecidableEq, Repr

def CodeEntry.toWord (c : CodeEntry) : Word :=
  BitVec.ofNat 64 (c.bits + c.len * 2 ^ 56 + c.valid.toNat * 2 ^ 63)

def CodeEntry.ofWord (w : Word) : CodeEntry where
  valid := bitField w.toNat 63 1 == 1
  len := bitField w.toNat 56 6
  bits := bitField w.toNat 0 56

/-- The entry of a symbol with Huffman code h (R244): LEN = |h|, BITS = val(h). -/
def CodeEntry.ofPath (h : List Bool) : CodeEntry := { valid := true, len := h.length, bits := valBits h }

/-- A NODE entry (R106): a leaf with its symbol, or an internal node with its bookkeeping symbol and its children. -/
inductive NodeEntry where
  | leaf (sym : Nat)
  | internal (sym left right : Nat)
  deriving DecidableEq, Repr

def NodeEntry.toWord : NodeEntry → Word
  | .leaf s => BitVec.ofNat 64 (s + 2 ^ 63)
  | .internal s l r => BitVec.ofNat 64 (s + l * 2 ^ 16 + r * 2 ^ 32)

def NodeEntry.ofWord (w : Word) : NodeEntry :=
  if bitField w.toNat 63 1 = 1 then .leaf (bitField w.toNat 0 9)
  else .internal (bitField w.toNat 0 9) (bitField w.toNat 16 10) (bitField w.toNat 32 10)

end Sys2Proof.Machine
end

