-- ==== Sys2Proof/Machine/Memory.lean ====
section
/-! DEFINITION. The memory operations (R40): the canonical form, reading and writing elements, and each memory's read with
the free value of an element nothing has written (R79, R351). -/

namespace Sys2Proof.Machine

/-- The canonical form: indices strictly rising. An unlisted element has no value, so no entry equals it (log 2). -/
abbrev Mem.wf {w : Nat} (m : Mem w) : Prop := m.Pairwise (fun a b => a.1 < b.1)

/-- The element at index i, if something has written it. -/
def Mem.get? {w : Nat} : Mem w → Nat → Option (BitVec w)
  | [], _ => none
  | c :: rest, i => bif c.1.beq i then some c.2 else Mem.get? rest i

/-- Values as consecutive entries from index i. -/
def Mem.cells {w : Nat} : Nat → List (BitVec w) → Mem w
  | _, [] => []
  | i, v :: vs => (i, v) :: Mem.cells (i + 1) vs

/-- Write consecutive elements from index i. -/
def Mem.put {w : Nat} (m : Mem w) (i : Nat) (vs : List (BitVec w)) : Mem w :=
  m.filter (fun c => c.1 < i) ++ Mem.cells i vs ++ m.filter (fun c => i + vs.length ≤ c.1)

/-- MemRead(SRC, i) (R9, R41). -/
def State.srcAt (s : State) (i : Nat) : Byte := (s.src.get? i).getD (Config.srcFill i)

/-- MemRead(DST, i) (R42). -/
def State.dstAt (s : State) (i : Nat) : Byte := (s.dst.get? i).getD (Config.dstFill s.ramEpoch i)

/-- MemRead(TOK, i) (R43). -/
def State.tokAt (s : State) (i : Nat) : Half := (s.tok.get? i).getD (Config.tokFill s.ramEpoch i)

/-- MemRead(FREQ, i) (R44). -/
def State.freqAt (s : State) (i : Nat) : Half := (s.freq.get? i).getD (Config.freqFill s.ramEpoch i)

/-- MemRead(CODE, i) (R45). -/
def State.codeAt (s : State) (i : Nat) : Word := (s.code.get? i).getD (Config.codeFill s.ramEpoch i)

/-- MemRead(NODE, i) (R46). -/
def State.nodeAt (s : State) (i : Nat) : Word := (s.node.get? i).getD (Config.nodeFill s.ramEpoch i)

/-- Element i of a memory, zero-extended to the 64 bits of the port's data. -/
def State.elem (s : State) : MemId → Nat → Word
  | .src, i => (s.srcAt i).setWidth 64
  | .dst, i => (s.dstAt i).setWidth 64
  | .tok, i => (s.tokAt i).setWidth 64
  | .freq, i => (s.freqAt i).setWidth 64
  | .code, i => s.codeAt i
  | .node, i => s.nodeAt i

end Sys2Proof.Machine
end

