-- ==== Sys2Proof/Machine/Operands.lean ====
section
/-! DEFINITION. Operand assembly: the latched ARG registers as natural numbers (R103, R141), and the configuration with
its legality check (R7, R33, R211). -/

namespace Sys2Proof.Machine

/-- ARG0 as a command reads it: the value latched at accept, a natural number (R103, R141). -/
def State.arg0 (s : State) : Nat := s.latchArg.r0.toNat
/-- ARG1 as a command reads it (R103, R141). -/
def State.arg1 (s : State) : Nat := s.latchArg.r1.toNat
/-- ARG2 as a command reads it (R103, R141). -/
def State.arg2 (s : State) : Nat := s.latchArg.r2.toNat

/-- The matcher's configuration as natural numbers (R7, R210). -/
structure LzConfig where
  window : Nat
  minMatch : Nat
  maxMatch : Nat
  maxChain : Nat
  lazyDiv : Nat
  deriving DecidableEq, Repr

def State.lzConfig (s : State) : LzConfig where
  window := s.cfg.window.toNat
  minMatch := s.cfg.minMatch.toNat
  maxMatch := s.cfg.maxMatch.toNat
  maxChain := s.cfg.maxChain.toNat
  lazyDiv := s.cfg.lazyDiv.toNat

/-- The bound on CFG_WINDOW (R33), the one DIST_ENC checks (R197). -/
def windowOk (w : Nat) : Bool := 1 ≤ w && w ≤ 65536

/-- The first failing configuration register, as its offset and its value, in the order of R211: CFG_WINDOW,
CFG_MAXMATCH, CFG_MINMATCH, CFG_MAXCHAIN, CFG_LAZYDIV. None when cfg_ok holds (R33). -/
def LzConfig.firstBad (c : LzConfig) : Option (Nat × Nat) :=
  if !windowOk c.window then some (0x80, c.window)
  else if !(3 ≤ c.maxMatch && c.maxMatch ≤ 258) then some (0x90, c.maxMatch)
  else if !(3 ≤ c.minMatch && c.minMatch ≤ c.maxMatch) then some (0x88, c.minMatch)
  else if !(1 ≤ c.maxChain && c.maxChain ≤ 65536) then some (0x98, c.maxChain)
  else if !(1 ≤ c.lazyDiv && c.lazyDiv ≤ 65536) then some (0xA0, c.lazyDiv)
  else none

end Sys2Proof.Machine
end

