-- ==== Sys2Proof/Machine/Ops.lean ====
section
/-! DEFINITION. The operations every command shares: accept (R141), completion (R143), raising an error, which is the
block's exception (R321), soft reset (R352), and the sequencing of steps that may raise (R9, R290). The return from an
error is the next accept (R325). -/

namespace Sys2Proof.Machine

/-- What a step of a rule does: go on with a value, raise an error (R9), or walk a tree without end (log 10). -/
inductive Res (α : Type) where
  | ok (a : α) (s : State)
  | raised (e : EngineError) (pos sym : Nat) (s : State)
  | stuck (f : Fault)
  deriving DecidableEq, Repr

/-- One step after another; a raise stops at once (R9). -/
def Res.bind {α β : Type} (r : Res α) (k : α → State → Res β) : Res β :=
  match r with
  | .ok a s => k a s
  | .raised e pos sym s => .raised e pos sym s
  | .stuck f => .stuck f

/-- Report a step's error as another error with another context (R271, R273, R298). -/
def Res.raiseAs {α : Type} (r : Res α) (e : EngineError) (pos sym : Nat) : Res α :=
  match r with
  | .raised _ _ _ s => .raised e pos sym s
  | r => r

/-- Inside DECOMPRESS an error's position is OUT_LEN; its symbol value stays (R295). -/
def Res.atOutLen {α : Type} (r : Res α) : Res α :=
  match r with
  | .raised e _ sym s => .raised e s.outLen.toNat sym s
  | r => r

/-- The results of done(r0, r1, r2, r3); none is '-' (R9). -/
structure Results where
  r0 : Option Nat
  r1 : Option Nat
  r2 : Option Nat
  r3 : Option Nat
  deriving DecidableEq, Repr

/-- done(-, -, -, -). -/
def Results.none : Results := { r0 := .none, r1 := .none, r2 := .none, r3 := .none }

/-- A result register after done: '-' leaves it unchanged (R143). -/
def setResult (old : Word) (r : Option Nat) : Word :=
  match r with
  | .none => old
  | .some v => Word.ofNat v

def Quad.setResults (q : Quad) (r : Results) : Quad where
  r0 := setResult q.r0 r.r0
  r1 := setResult q.r1 r.r1
  r2 := setResult q.r2 r.r2
  r3 := setResult q.r3 r.r3

/-- Successful completion (R143). -/
def State.complete (s : State) (r : Results) : State :=
  { s with res := s.res.setResults r, errPos := 0, errSym := 0, status := s.status.succeeded,
           phase := .idle, dec := DecodeVars.zero }

/-- raise e(pos, sym) (R321). Nothing else is rolled back. -/
def State.raise (s : State) (e : EngineError) (pos sym : Nat) : State :=
  { s with res := Quad.zero, errPos := Word.ofNat pos, errSym := Word.ofNat sym, status := s.status.failed e,
           phase := .idle, dec := DecodeVars.zero }

/-- The end of a command: done or raise. -/
def Res.finish (r : Res Results) : Host.Outcome State Fault Refusal :=
  match r with
  | .ok rs s => .next (s.complete rs)
  | .raised e pos sym s => .next (s.raise e pos sym)
  | .stuck f => .fault f

/-- The end of one step of DECOMPRESS, which goes on with the next (R295). -/
def Res.goOn (r : Res Unit) : Host.Outcome State Fault Refusal :=
  match r with
  | .ok _ s => .next s
  | .raised e pos sym s => .next (s.raise e pos sym)
  | .stuck f => .fault f

/-- Accept of a word written to CMD (R141); State.submit adds what R35 and R144 say of single words. It is also the return from an error: it clears DONE, ERR and ERRCODE and
keeps ERR_POS and ERR_SYM (R325). -/
def State.accept (s : State) (w : Word) : State :=
  { s with cmd := w, latchCmd := w, latchArg := s.arg, status := s.status.accepted, phase := .latched }

/-- Soft reset (R352): every register takes its power-on value and the Engine is IDLE. SRC is kept. If a command was
running, the five other memories become unspecified: their elements are free values of a new epoch (log 17). -/
def State.softReset (s : State) : State :=
  let r := State.powerOn s.params
  let kept : State := { r with src := s.src, pending := s.pending, portData := s.portData, draws := s.draws }
  if s.busy then { kept with ramEpoch := s.ramEpoch + 1 }
  else { kept with dst := s.dst, tok := s.tok, freq := s.freq, code := s.code, node := s.node, ramEpoch := s.ramEpoch }

/-- The configuration check (R211). -/
def checkConfig (s : State) : Res Unit :=
  match s.lzConfig.firstBad with
  | some (off, v) => .raised .badArgument off v s
  | none => .ok () s

/-- Write consecutive DST elements. -/
def State.putDst (s : State) (i : Nat) (vs : List Byte) : State := { s with dst := s.dst.put i vs }
/-- Write consecutive TOK elements. -/
def State.putTok (s : State) (i : Nat) (vs : List Half) : State := { s with tok := s.tok.put i vs }
/-- Write consecutive FREQ elements. -/
def State.putFreq (s : State) (i : Nat) (vs : List Half) : State := { s with freq := s.freq.put i vs }
/-- Write consecutive CODE elements. -/
def State.putCode (s : State) (i : Nat) (vs : List Word) : State := { s with code := s.code.put i vs }
/-- Write consecutive NODE elements. -/
def State.putNode (s : State) (i : Nat) (vs : List Word) : State := { s with node := s.node.put i vs }

end Sys2Proof.Machine
end

