-- ==== Sys2Proof/Machine/BitStream.lean ====
section
/-! DEFINITION. BitStream I/O (41_bitstream.md): the primitives writeBits, flush and readBits, and the five commands over
them. -/

namespace Sys2Proof.Machine

/-- Primitive writeBits(v, n) (R162). The capacity check comes first. A drawn CODE entry may ask for n up to 63 (log 12). -/
def writeBits (v n : Nat) (s : State) : Res Unit :=
  let c := s.bw.cnt.toNat + n
  let nb := c / 8
  let pos := s.bw.pos.toNat
  if pos + nb > s.params.dstSize then .raised .capacityExceeded pos n s
  else
    let a := s.bw.acc.toNat * 2 ^ n + v % 2 ^ n
    .ok () { s.putDst pos (topBytes a c nb) with
      bw := { pos := Word.ofNat (pos + nb), acc := Word.ofNat (a % 2 ^ (c - 8 * nb)), cnt := Word.ofNat (c - 8 * nb),
              total := Word.ofNat (s.bw.total.toNat + n) } }

/-- A sequence of writeBits calls; the first raise stops it and keeps the earlier writes (R246). -/
def writeAll : List (Nat × Nat) → State → Res Unit
  | [], s => .ok () s
  | (v, n) :: rest, s => (writeBits v n s).bind (fun _ s1 => writeAll rest s1)

/-- Primitive flush() (R164): the pending bits go to the high bits of one last byte. -/
def flush (s : State) : Res Unit :=
  let pos := s.bw.pos.toNat
  let cnt := s.bw.cnt.toNat
  if cnt > 0 then
    if pos + 1 > s.params.dstSize then .raised .capacityExceeded pos 0 s
    else .ok () { s.putDst pos [BitVec.ofNat 8 (s.bw.acc.toNat * 2 ^ (8 - cnt))] with
      bw := { s.bw with pos := Word.ofNat (pos + 1), acc := 0, cnt := 0 } }
  else .ok () { s with bw := { s.bw with acc := 0, cnt := 0 } }

/-- BW_INIT without its done (R161). -/
def bwInit (o : Nat) (s : State) : Res Unit :=
  if o > s.params.dstSize then .raised .badArgument 0 o s
  else .ok () { s with bw := { pos := Word.ofNat o, acc := 0, cnt := 0, total := 0 } }

/-- BR_INIT without its done (R167). -/
def brInit (start stop : Nat) (s : State) : Res Unit :=
  if start > stop ∨ stop > s.params.srcSize then .raised .badArgument 0 start s
  else .ok () { s with br := { pos := Word.ofNat start, stop := Word.ofNat stop, acc := 0, cnt := 0 } }

/-- The bits still available to the reader: cached ones and those of SRC[BR_POS..BR_END) (R168). -/
def State.bitsLeft (s : State) : Nat := s.br.cnt.toNat + 8 * (s.br.stop.toNat - s.br.pos.toNat)

/-- How many bytes the loop of readBits(n) loads when c bits are cached (R168): it stops at the first c + 8k ≥ n. -/
def bytesToLoad (n c : Nat) : Nat := (n - c + 7) / 8

/-- The loop of readBits: append k SRC bytes from p to the accumulator a (R168). -/
def loadBytes (s : State) : Nat → Nat → Nat → Nat
  | 0, _, a => a
  | k + 1, p, a => loadBytes s k (p + 1) (a * 256 + (s.srcAt p).toNat)

/-- Primitive readBits(n) (R168). The availability check comes first. -/
def readBits (n : Nat) (s : State) : Res Nat :=
  if s.bitsLeft < n then .raised .endOfStream s.br.pos.toNat n s
  else
    let k := bytesToLoad n s.br.cnt.toNat
    let c := s.br.cnt.toNat + 8 * k
    let a := loadBytes s k s.br.pos.toNat s.br.acc.toNat
    .ok (a / 2 ^ (c - n) % 2 ^ n)
      { s with br := { s.br with pos := Word.ofNat (s.br.pos.toNat + k), cnt := Word.ofNat (c - n),
                                 acc := Word.ofNat (a % 2 ^ (c - n)) } }

/-- BW_INIT (R161). -/
def execBwInit (s : State) : Host.Outcome State Fault Refusal :=
  ((bwInit s.arg0 s).bind (fun _ t => .ok Results.none t)).finish

/-- BW_BITS (R163). DEDUCED (log 24): n > 57 has ERR_POS 0, as R163's raise says; R322's general row would give 1. -/
def execBwBits (s : State) : Host.Outcome State Fault Refusal :=
  (if s.arg1 > Config.nMax then Res.raised .badArgument 0 s.arg1 s
   else (writeBits s.arg0 s.arg1 s).bind (fun _ t => .ok Results.none t)).finish

/-- BW_FLUSH (R165). -/
def execBwFlush (s : State) : Host.Outcome State Fault Refusal :=
  ((flush s).bind (fun _ t => .ok { Results.none with r0 := some t.bw.pos.toNat } t)).finish

/-- BR_INIT (R167). -/
def execBrInit (s : State) : Host.Outcome State Fault Refusal :=
  ((brInit s.arg0 s.arg1 s).bind (fun _ t => .ok Results.none t)).finish

/-- BR_BITS (R169). -/
def execBrBits (s : State) : Host.Outcome State Fault Refusal :=
  (if s.arg0 > Config.nMax then Res.raised .badArgument 0 s.arg0 s
   else (readBits s.arg0 s).bind (fun r t => .ok { Results.none with r0 := some r } t)).finish

end Sys2Proof.Machine
end

