-- ==== Sys2Proof/Machine/Alphabet.lean ====
section
/-! DEFINITION. The symbol alphabet (R110) and the length and distance tables (42_alphabet.md), with the four commands
over them. -/

namespace Sys2Proof.Machine

/-- The alphabet A (R110): 0 to 285 and 300 to 331. -/
def inAlphabet (sym : Nat) : Bool := sym ≤ 285 || (300 ≤ sym && sym ≤ 331)

/-- A row of the tables: a code, its base and its extra-bit count (R190, R191). -/
structure BucketRow where
  code : Nat
  base : Nat
  extra : Nat
  deriving DecidableEq, Repr

/-- The length table, codes 257 to 284 (R190). -/
def lengthRows : List BucketRow :=
  [⟨257, 3, 0⟩, ⟨258, 4, 0⟩, ⟨259, 5, 0⟩, ⟨260, 6, 0⟩, ⟨261, 7, 0⟩, ⟨262, 8, 0⟩,
   ⟨263, 9, 0⟩, ⟨264, 10, 0⟩, ⟨265, 11, 1⟩, ⟨266, 13, 1⟩, ⟨267, 15, 1⟩, ⟨268, 17, 1⟩,
   ⟨269, 19, 2⟩, ⟨270, 23, 2⟩, ⟨271, 27, 2⟩, ⟨272, 31, 2⟩, ⟨273, 35, 3⟩, ⟨274, 43, 3⟩,
   ⟨275, 51, 3⟩, ⟨276, 59, 3⟩, ⟨277, 67, 4⟩, ⟨278, 83, 4⟩, ⟨279, 99, 4⟩, ⟨280, 115, 4⟩,
   ⟨281, 131, 5⟩, ⟨282, 163, 5⟩, ⟨283, 195, 5⟩, ⟨284, 227, 5⟩]

/-- Code 285: length 258, no extra bits (R190). -/
def lastLengthRow : BucketRow := ⟨285, 258, 0⟩

/-- The distance table (R191). -/
def distanceRows : List BucketRow :=
  [⟨300, 1, 0⟩, ⟨301, 2, 0⟩, ⟨302, 3, 0⟩, ⟨303, 4, 0⟩, ⟨304, 5, 1⟩,
   ⟨305, 7, 1⟩, ⟨306, 9, 2⟩, ⟨307, 13, 2⟩, ⟨308, 17, 3⟩, ⟨309, 25, 3⟩,
   ⟨310, 33, 4⟩, ⟨311, 49, 4⟩, ⟨312, 65, 5⟩, ⟨313, 97, 5⟩, ⟨314, 129, 6⟩,
   ⟨315, 193, 6⟩, ⟨316, 257, 7⟩, ⟨317, 385, 7⟩, ⟨318, 513, 8⟩, ⟨319, 769, 8⟩,
   ⟨320, 1025, 9⟩, ⟨321, 1537, 9⟩, ⟨322, 2049, 10⟩, ⟨323, 3073, 10⟩, ⟨324, 4097, 11⟩,
   ⟨325, 6145, 11⟩, ⟨326, 8193, 12⟩, ⟨327, 12289, 12⟩, ⟨328, 16385, 13⟩, ⟨329, 24577, 13⟩,
   ⟨330, 32769, 14⟩, ⟨331, 49153, 14⟩]

/-- The row whose range holds v: base ≤ v ≤ base + 2^extra - 1 (R192, R196). -/
def bucketOf (rows : List BucketRow) (v : Nat) : Option BucketRow :=
  rows.find? (fun r => r.base ≤ v && v ≤ r.base + 2 ^ r.extra - 1)

/-- The token of a value in a row: (code, extraBits, extraValue). -/
def BucketRow.token (r : BucketRow) (v : Nat) : Token := { sym := r.code, xbits := r.extra, xval := v - r.base }

/-- The row of the symbol. -/
def rowOfCode (rows : List BucketRow) (code : Nat) : Option BucketRow := rows.find? (fun r => r.code == code)

/-- lengthToCode(l) (R192); 258 is code 285. Its domain is [3, 258]; outside it no rule calls it, and the value given
here has no meaning. -/
def lengthToCode (l : Nat) : Token :=
  if l = 258 then lastLengthRow.token l
  else ((bucketOf lengthRows l).getD lastLengthRow).token l

/-- distanceToCode(d) (R196). Its domain is [1, 65536]; outside it no rule calls it, and the value given here has no
meaning. -/
def distanceToCode (d : Nat) : Token := ((bucketOf distanceRows d).getD ⟨331, 49153, 14⟩).token d

/-- codeToLengthBase(c) (R194): the base and the extra bits; none outside 257 to 285. -/
def codeToLengthBase (c : Nat) : Option (Nat × Nat) :=
  (rowOfCode (lengthRows ++ [lastLengthRow]) c).map (fun r => (r.base, r.extra))

/-- codeToDistanceBase(c) (R198): the base and the extra bits; none outside 300 to 331. -/
def codeToDistanceBase (c : Nat) : Option (Nat × Nat) :=
  (rowOfCode distanceRows c).map (fun r => (r.base, r.extra))

/-- A token as results (R193, R197). -/
def Token.results (t : Token) : Results := { r0 := some t.sym, r1 := some t.xbits, r2 := some t.xval, r3 := none }

/-- LEN_ENC (R193). -/
def execLenEnc (s : State) : Host.Outcome State Fault Refusal :=
  (if s.arg0 < Config.lenMin ∨ s.arg0 > Config.lenMax then Res.raised .badArgument 0 s.arg0 s
   else .ok (lengthToCode s.arg0).results s).finish

/-- LEN_DEC (R195). -/
def execLenDec (s : State) : Host.Outcome State Fault Refusal :=
  (match codeToLengthBase s.arg0 with
   | none => Res.raised .badArgument 0 s.arg0 s
   | some (b, e) => Res.ok (α := Results) { r0 := some b, r1 := some e, r2 := none, r3 := none } s).finish

/-- DIST_ENC (R197): the window check first, then the domain. -/
def execDistEnc (s : State) : Host.Outcome State Fault Refusal :=
  (if !windowOk s.cfg.window.toNat then Res.raised .badArgument 0x80 s.cfg.window.toNat s
   else if s.arg0 < 1 ∨ s.arg0 > s.cfg.window.toNat then .raised .badArgument 0 s.arg0 s
   else .ok (distanceToCode s.arg0).results s).finish

/-- DIST_DEC (R199). -/
def execDistDec (s : State) : Host.Outcome State Fault Refusal :=
  (match codeToDistanceBase s.arg0 with
   | none => Res.raised .badArgument 0 s.arg0 s
   | some (b, e) => Res.ok (α := Results) { r0 := some b, r1 := some e, r2 := none, r3 := none } s).finish

/-- NOP (R142). -/
def execNop (s : State) : Host.Outcome State Fault Refusal := (Res.ok Results.none s).finish

end Sys2Proof.Machine
end

