-- ==== Sys2Proof/Machine/HuffmanTree.lean ====
section
/-! DEFINITION. Code trees (R106, R270): the tree that NODE holds, its codes (R244) and its serialized form (R114). -/

namespace Sys2Proof.Machine

/-- A full binary code tree: what NODE holds below an index (R35, R46). -/
inductive CodeTree where
  | leaf (sym : Nat)
  | node (left right : CodeTree)
  deriving DecidableEq, Repr

/-- The tree below NODE index i, read down to `depth` levels; none if it goes deeper (R106). -/
def State.treeAt (s : State) : Nat → Nat → Option CodeTree
  | 0, _ => none
  | depth + 1, i =>
    match NodeEntry.ofWord (s.nodeAt i) with
    | .leaf sym => some (.leaf sym)
    | .internal _ l r =>
      match s.treeAt depth l, s.treeAt depth r with
      | some tl, some tr => some (.node tl tr)
      | _, _ => none

/-- The current tree, from TREE_ROOT. A tree has at most NODE_CAP nodes, so at most NODE_CAP levels. -/
def State.tree? (s : State) : Option CodeTree := s.treeAt s.params.nodeCap s.tree.root.toNat

/-- The number of leaves. -/
def CodeTree.leaves : CodeTree → Nat
  | .leaf _ => 1
  | .node l r => l.leaves + r.leaves

/-- The number of nodes, leaves and internal ones. -/
def CodeTree.size : CodeTree → Nat
  | .leaf _ => 1
  | .node l r => l.size + r.size + 1

/-- The leaf list in pre-order with each leaf's edge string, 0 (false) to the left and 1 (true) to the right (R244's walk). -/
def CodeTree.paths : CodeTree → List (Nat × List Bool)
  | .leaf sym => [(sym, [])]
  | .node l r => l.paths.map (fun x => (x.1, false :: x.2)) ++ r.paths.map (fun x => (x.1, true :: x.2))

/-- The writeBits calls that serialize a tree, in order (R246). -/
def CodeTree.serialWrites : CodeTree → List (Nat × Nat)
  | .leaf sym => [(1, 1), (sym, Config.leafBits)]
  | .node l r => (0, 1) :: (l.serialWrites ++ r.serialWrites)

/-- The serialized tree as a bit string (R114). -/
def CodeTree.serialBits : CodeTree → List Bool
  | .leaf sym => true :: bitsOf Config.leafBits sym
  | .node l r => false :: (l.serialBits ++ r.serialBits)

/-- The greatest code length, 0 for an empty list. -/
def maxPathLength (paths : List (Nat × List Bool)) : Nat := paths.foldl (fun m x => max m x.2.length) 0

/-- CODE[sym] after HUFF_CODES on a leaf list: the first leaf of that symbol, or the invalid entry 0 (R244). -/
def codeWordOf (paths : List (Nat × List Bool)) (sym : Nat) : Word :=
  match paths.find? (fun x => x.1 == sym) with
  | some (_, h) => (CodeEntry.ofPath h).toWord
  | none => 0

end Sys2Proof.Machine
end

