-- ==== Sys2Proof/Machine/HuffmanDecode.lean ====
section
/-! DEFINITION. The Huffman decoder (45_huffman_decode.md): des(), decodeSym() and their commands. -/

namespace Sys2Proof.Machine

/-- A subtree that des() has built: its index, its least leaf symbol, and cnt after it (R271). -/
structure BuiltNode where
  idx : Nat
  least : Nat
  cnt : Nat
  deriving DecidableEq, Repr

/-- des() from cnt allocated nodes (R271). `depth` is more than NODE_CAP levels can use: each level allocates a node, so at
level NODE_CAP + 1 cnt is NODE_CAP and the first check raises. -/
def des : Nat → Nat → State → Res BuiltNode
  | 0, cnt, s => .raised .malformedTree s.br.pos.toNat cnt s
  | depth + 1, cnt, s =>
    if cnt = s.params.nodeCap then .raised .malformedTree s.br.pos.toNat cnt s
    else ((readBits 1 s).raiseAs .malformedTree s.br.pos.toNat (cnt + 1)).bind (fun tag s1 =>
      if tag = 1 then
        ((readBits Config.leafBits s1).raiseAs .malformedTree s1.br.pos.toNat (cnt + 1)).bind (fun sym s2 =>
          .ok { idx := cnt, least := sym, cnt := cnt + 1 } (s2.putNode cnt [(NodeEntry.leaf sym).toWord]))
      else
        (des depth (cnt + 1) s1).bind (fun l s2 =>
          (des depth l.cnt s2).bind (fun r s3 =>
            .ok { idx := cnt, least := min l.least r.least, cnt := r.cnt }
              (s3.putNode cnt [(NodeEntry.internal (min l.least r.least) l.idx r.idx).toWord]))))

/-- HUFF_DESERIALIZE without its done (R271); its value is the node count. -/
def huffDeserialize (s0 : State) : Res Nat :=
  let s := { s0 with tree := { s0.tree with valid := false } }
  (des (s.params.nodeCap + 1) 0 s).bind (fun b s1 =>
    .ok b.cnt { s1 with tree := { root := 0, nodes := Word.ofNat b.cnt, valid := true } })

/-- The descent of decodeSym from a NODE entry after d bits (R273). Each pass reads one bit, so `fuel` = the bits left + 1
passes are enough. -/
def descend : Nat → NodeEntry → Nat → State → Res (Nat × Nat)
  | 0, _, d, s => .raised .malformedTree s.br.pos.toNat d s
  | _ + 1, .leaf sym, d, s => .ok (sym, d) s
  | fuel + 1, .internal _ l r, d, s =>
    ((readBits 1 s).raiseAs .malformedTree s.br.pos.toNat d).bind (fun b s1 =>
      descend fuel (NodeEntry.ofWord (s1.nodeAt (if b = 0 then l else r))) (d + 1) s1)

/-- decodeSym() (R273): the symbol and the number of bits consumed. -/
def decodeSym (s : State) : Res (Nat × Nat) :=
  descend (s.bitsLeft + 1) (NodeEntry.ofWord (s.nodeAt s.tree.root.toNat)) 0 s

/-- HUFF_DESERIALIZE (R271). -/
def execHuffDeserialize (s : State) : Host.Outcome State Fault Refusal :=
  ((huffDeserialize s).bind (fun cnt t => .ok { Results.none with r0 := some 0, r1 := some cnt } t)).finish

/-- HUFF_DECODE_SYM (R273). -/
def execHuffDecodeSym (s : State) : Host.Outcome State Fault Refusal :=
  (if !s.tree.valid then Res.raised .noTree 0 0 s
   else (decodeSym s).bind (fun r t => .ok { Results.none with r0 := some r.1, r1 := some r.2 } t)).finish

end Sys2Proof.Machine
end

