-- ==== Sys2Proof/Machine/HuffmanEncode.lean ====
section
/-! DEFINITION. The Huffman encoder commands (44_huffman_encode.md). -/

namespace Sys2Proof.Machine

/-- The token stream TOK[0..TOK_COUNT) (R43). -/
def State.tokens (s : State) : List Token := (List.range s.tokCount.toNat).map (fun i => Token.ofWord (s.tokAt i))

/-- The counting loop of FREQ_COUNT over the symbols from token index i: the counts f[0..512), or the error with its token
index and symbol (R240). -/
def countSymbols : List Nat → Nat → List Nat → Except (EngineError × Nat × Nat) (List Nat)
  | [], _, f => .ok f
  | sym :: syms, i, f =>
    if !inAlphabet sym then .error (.unsupportedSymbol, i, sym)
    else if f.getD sym 0 = 2 ^ 32 - 1 then .error (.capacityExceeded, i, sym)
    else countSymbols syms (i + 1) (f.set sym (f.getD sym 0 + 1))

/-- FREQ_COUNT without its done (R240); its value is the number of distinct symbols. FREQ is written on success only. -/
def freqCount (s : State) : Res Nat :=
  match countSymbols (s.tokens.map Token.sym) 0 (List.replicate Config.symbols 0) with
  | .error (e, i, sym) => .raised e i sym s
  | .ok f => .ok (f.countP (fun k => k > 0)) (s.putFreq 0 (f.map (BitVec.ofNat 32)))

/-- A node in HUFF_BUILD's queue: its weight, its key and its NODE index (R241). -/
structure QueueNode where
  weight : Nat
  key : Nat
  idx : Nat
  deriving DecidableEq, Repr

/-- The priority order of R241: (weight, key) lexicographically. -/
def QueueNode.precedes (x y : QueueNode) : Bool := x.weight < y.weight || (x.weight == y.weight && x.key < y.key)

/-- The first node of a queue in the order of R241, and the queue without it (R242). -/
def popFirst : List QueueNode → Option (QueueNode × List QueueNode)
  | [] => none
  | x :: xs =>
    match popFirst xs with
    | none => some (x, [])
    | some (y, rest) => if y.precedes x then some (y, x :: rest) else some (x, xs)

/-- The merge loop of HUFF_BUILD (R242): the root, and NODE after the merges. `fuel` = |Q| - 1 passes leave one node. -/
def huffMerge : Nat → List QueueNode → Nat → Mem 64 → Nat × Mem 64
  | 0, q, _, node => ((q.map QueueNode.idx).headD 0, node)
  | fuel + 1, q, nx, node =>
    match popFirst q with
    | none => (0, node)
    | some (a, q1) =>
      match popFirst q1 with
      | none => (a.idx, node)
      | some (c, q2) =>
        let key := min a.key c.key
        huffMerge fuel ({ weight := a.weight + c.weight, key := key, idx := nx } :: q2) (nx + 1)
          (node.put nx [(NodeEntry.internal key a.idx c.idx).toWord])

/-- The symbols with a nonzero count that are outside the alphabet, ascending (R242). -/
def badFreqSymbols (f : Nat → Nat) : List Nat := (List.range Config.symbols).filter (fun t => !inAlphabet t && f t != 0)

/-- S: the symbols of A with a nonzero count, ascending (R242). -/
def usedSymbols (f : Nat → Nat) : List Nat := (List.range Config.symbols).filter (fun t => inAlphabet t && f t > 0)

/-- The queue of leaves: leaf j is S[j] at NODE index j (R242). -/
def leafQueue (f : Nat → Nat) (syms : List Nat) : List QueueNode :=
  syms.zipIdx.map (fun x => { weight := f x.1, key := x.1, idx := x.2 })

/-- FREQ as natural numbers. -/
def State.freqNat (s : State) (t : Nat) : Nat := (s.freqAt t).toNat

/-- HUFF_BUILD without its done (R242); its value is (root, 2k - 1, k). -/
def huffBuild (s0 : State) : Res (Nat × Nat × Nat) :=
  let s := { s0 with tree := { s0.tree with valid := false } }
  match badFreqSymbols s.freqNat with
  | t :: _ => .raised .unsupportedSymbol 0 t s
  | [] =>
    let syms := usedSymbols s.freqNat
    let k := syms.length
    if k = 0 then .raised .badArgument 0 0 s
    else
      let leaves := s.node.put 0 (syms.map (fun t => (NodeEntry.leaf t).toWord))
      let built := huffMerge (k - 1) (leafQueue s.freqNat syms) k leaves
      .ok (built.1, 2 * k - 1, k) { s with
        node := built.2
        tree := { root := Word.ofNat built.1, nodes := Word.ofNat (2 * k - 1), valid := true } }

/-- Run a rule on the current tree: NoTree when TREE_VALID = 0 (R244, R246). -/
def withTree {α : Type} (s : State) (k : CodeTree → Res α) : Res α :=
  if !s.tree.valid then .raised .noTree 0 0 s
  else match s.tree? with
    | none => .stuck (.endlessTreeWalk s.tree.root.toNat)
    | some t => k t

/-- HUFF_CODES without its done (R244); its value is (valid entries, greatest length). -/
def huffCodes (s : State) : Res (Nat × Nat) :=
  withTree s (fun t =>
    match t.paths.find? (fun x => x.2.length > Config.codeLenMax) with
    | some (sym, h) => .raised .codeTooLong h.length sym s
    | none =>
      .ok ((List.range Config.symbols).countP (fun sym => t.paths.any (fun x => x.1 == sym)), maxPathLength t.paths)
        (s.putCode 0 ((List.range Config.symbols).map (codeWordOf t.paths))))

/-- The total bit count of a sequence of writeBits calls. -/
def totalBits (ws : List (Nat × Nat)) : Nat := (ws.map Prod.snd).sum

/-- HUFF_SERIALIZE without its done (R246); its value is the number of bits written. -/
def huffSerialize (s : State) : Res Nat :=
  withTree s (fun t => (writeAll t.serialWrites s).bind (fun _ s1 => .ok (totalBits t.serialWrites) s1))

/-- The loop of HUFF_ENCODE over the tokens from index i, t bits so far (R248). -/
def encodeTokens : List Token → Nat → Nat → State → Res Nat
  | [], _, t, s => .ok t s
  | tok :: toks, i, t, s =>
    let ce := CodeEntry.ofWord (s.codeAt tok.sym)
    if !ce.valid then .raised .unsupportedSymbol i tok.sym s
    else (writeBits ce.bits ce.len s).bind (fun _ s1 =>
      (writeBits tok.xval tok.xbits s1).bind (fun _ s2 =>
        encodeTokens toks (i + 1) (t + ce.len + tok.xbits) s2))

/-- HUFF_ENCODE without its done (R248); its value is the number of bits written. -/
def huffEncode (s : State) : Res Nat := encodeTokens s.tokens 0 0 s

/-- FREQ_COUNT (R240). -/
def execFreqCount (s : State) : Host.Outcome State Fault Refusal :=
  ((freqCount s).bind (fun k t => .ok { Results.none with r0 := some k } t)).finish

/-- HUFF_BUILD (R242). -/
def execHuffBuild (s : State) : Host.Outcome State Fault Refusal :=
  ((huffBuild s).bind (fun r t => .ok { r0 := some r.1, r1 := some r.2.1, r2 := some r.2.2, r3 := none } t)).finish

/-- HUFF_CODES (R244). -/
def execHuffCodes (s : State) : Host.Outcome State Fault Refusal :=
  ((huffCodes s).bind (fun r t => .ok { Results.none with r0 := some r.1, r1 := some r.2 } t)).finish

/-- HUFF_SERIALIZE (R246). -/
def execHuffSerialize (s : State) : Host.Outcome State Fault Refusal :=
  ((huffSerialize s).bind (fun k t => .ok { Results.none with r0 := some k } t)).finish

/-- HUFF_ENCODE (R248). -/
def execHuffEncode (s : State) : Host.Outcome State Fault Refusal :=
  ((huffEncode s).bind (fun k t => .ok { Results.none with r0 := some k } t)).finish

end Sys2Proof.Machine
end

