-- ==== Sys2Proof/Machine/Matcher.lean ====
section
/-! DEFINITION. The LZ77 matcher (43_lz77.md). The input is a function from positions to byte values, so that the search
is a function of the input and the configuration alone (R224). -/

namespace Sys2Proof.Machine

/-- hash(s): the 15-bit hash of the 3-byte prefix at s (R212). -/
def lzHash (b : Nat → Nat) (s : Nat) : Nat := ((b s * 2 ^ 10) ^^^ (b (s + 1) * 2 ^ 5) ^^^ b (s + 2)) % 2 ^ 15

/-- chain(s): the indexed positions with the hash of s, most recent first, within the window, at most CHAIN of them
(R214, R215). -/
def lzChain (c : LzConfig) (b : Nat → Nat) (s : Nat) : List Nat :=
  (((List.range (min s c.window)).map (fun k => s - 1 - k)).filter (fun q => lzHash b q == lzHash b s)).take c.maxChain

/-- matchLen(q, s, L): the greatest l ≤ L such that the l bytes at q and at s agree (R216). -/
def matchLen (b : Nat → Nat) (q s : Nat) : Nat → Nat
  | 0 => 0
  | l + 1 => if b q = b s then matchLen b (q + 1) (s + 1) l + 1 else 0

/-- The loop of findMatch over the candidates, from the best match so far (R217). -/
def bestOf (b : Nat → Nat) (s limit : Nat) : List Nat → Nat × Nat → Nat × Nat
  | [], best => best
  | q :: qs, best =>
    let l := matchLen b q s limit
    let best' := if l > best.1 then (l, s - q) else best
    if l = limit then best' else bestOf b s limit qs best'

/-- findMatch(s) as (length, distance) (R217). -/
def findMatch (c : LzConfig) (b : Nat → Nat) (n s : Nat) : Nat × Nat :=
  if s + 3 > n then (0, 0) else bestOf b s (min c.maxMatch (n - s)) (lzChain c b s) (0, 0)

/-- lazyDefer(l0, d0, l1, d1) (R218). -/
def lazyDefer (c : LzConfig) (m0 m1 : Nat × Nat) : Bool :=
  m1.1 > m0.1 || (m1.1 == m0.1 && m1.2 < m0.2 / c.lazyDiv)

/-- Is the match m0 at p taken? (R213) -/
def takesMatch (c : LzConfig) (b : Nat → Nat) (n p : Nat) (m0 : Nat × Nat) : Bool :=
  m0.1 ≥ c.minMatch && !lazyDefer c m0 (if p + 1 < n then findMatch c b n (p + 1) else (0, 0))

/-- A literal's token and the end-of-stream token (R219, R220). -/
def literalToken (v : Nat) : Token := { sym := v, xbits := 0, xval := 0 }
def eosToken : Token := { sym := Config.eos, xbits := 0, xval := 0 }

/-- The loop of LZ_MATCH from position p (R213, R219). Each pass consumes at least one byte, so `fuel` = n - p passes are
enough. -/
def lzScan (c : LzConfig) (b : Nat → Nat) (n : Nat) : Nat → Nat → List Token
  | 0, _ => []
  | fuel + 1, p =>
    if p < n then
      let m0 := findMatch c b n p
      if takesMatch c b n p m0 then
        lengthToCode m0.1 :: distanceToCode m0.2 :: lzScan c b n fuel (p + m0.1)
      else literalToken (b p) :: lzScan c b n fuel (p + 1)
    else []

/-- The token stream of b[0..n), EOS last (R213, R220). -/
def lzTokens (c : LzConfig) (b : Nat → Nat) (n : Nat) : List Token := lzScan c b n n 0 ++ [eosToken]

/-- The input bytes as the matcher reads them: b = SRC[0..n) (R210). -/
def State.input (s : State) (i : Nat) : Nat := (s.srcAt i).toNat

/-- LZ_MATCH without its done (R213); its value is k.
DEDUCED (log 25): it writes TOK and TOK_COUNT alone (R213, R145); R355's item 3 lists FREQ, CODE and NODE for it too. -/
def lzMatch (n : Nat) (s : State) : Res Nat :=
  if n > s.params.srcSize then .raised .badArgument 0 n s
  else (checkConfig s).bind (fun _ s =>
    let toks := lzTokens s.lzConfig s.input n
    .ok toks.length { s.putTok 0 (toks.map Token.toWord) with tokCount := Word.ofNat toks.length })

/-- LZ_MATCH (R213). -/
def execLzMatch (s : State) : Host.Outcome State Fault Refusal :=
  ((lzMatch s.arg0 s).bind (fun k t => .ok { Results.none with r0 := some k } t)).finish

end Sys2Proof.Machine
end

