-- ==== Sys2Proof/Machine/Container.lean ====
section
/-! DEFINITION. The container pipeline (46_container.md): COMPRESS, and DECOMPRESS up to its decode loop. -/

namespace Sys2Proof.Machine

/-- The nine header bytes: dataType, auxWidth and originalLength, little-endian (R291, R113). -/
def headerBytes (dataType auxWidth n : Nat) : List Byte :=
  BitVec.ofNat 8 dataType :: (List.range 4).map (fun j => BitVec.ofNat 8 (byteOf auxWidth j))
    ++ (List.range 4).map (fun j => BitVec.ofNat 8 (byteOf n j))

/-- The operand checks of COMPRESS, in order (R290): the failing ARG index and its value. -/
def compressBadArg (p : Config.Params) (n dataType auxWidth : Nat) : Option (Nat × Nat) :=
  if n > p.srcSize then some (0, n)
  else if dataType > 1 then some (1, dataType)
  else if auxWidth > 2 ^ 32 - 1 then some (2, auxWidth)
  else if dataType = 0 ∧ auxWidth ≠ 0 then some (2, auxWidth)
  else none

/-- COMPRESS without its done (R290); its value is (container bytes, tokens, bits, leaves). -/
def compress (n dataType auxWidth : Nat) (s : State) : Res (Nat × Nat × Nat × Nat) :=
  match compressBadArg s.params n dataType auxWidth with
  | some (i, v) => .raised .badArgument i v s
  | none =>
    (checkConfig s).bind fun _ s =>
    (lzMatch n s).bind fun k s =>
    (freqCount s).bind fun _ s =>
    (huffBuild s).bind fun tree s =>
    (huffCodes s).bind fun _ s =>
    (bwInit 9 (s.putDst 0 (headerBytes dataType auxWidth n))).bind fun _ s =>
    (huffSerialize s).bind fun _ s =>
    (huffEncode s).bind fun _ s =>
    (flush s).bind fun _ s =>
    .ok (s.bw.pos.toNat, k, s.bw.total.toNat, tree.2.2) s

/-- COMPRESS (R290). -/
def execCompress (s : State) : Host.Outcome State Fault Refusal :=
  ((compress s.arg0 s.arg1 s.arg2 s).bind (fun r t =>
    .ok { r0 := some r.1, r1 := some r.2.1, r2 := some r.2.2.1, r3 := some r.2.2.2 } t)).finish

/-- The 32-bit little-endian integer in SRC[i..i+4) (R74, R294). -/
def State.srcLE32 (s : State) (i : Nat) : Nat :=
  (s.srcAt i).toNat + (s.srcAt (i + 1)).toNat * 2 ^ 8 + (s.srcAt (i + 2)).toNat * 2 ^ 16 + (s.srcAt (i + 3)).toNat * 2 ^ 24

/-- DECOMPRESS up to its decode loop (R294): the header checks, BR_INIT and HUFF_DESERIALIZE. The Engine is then in the
decode loop (R295), one symbol a step (log 4). -/
def decompress (m : Nat) (s0 : State) : Res Unit :=
  let s := { s0 with outLen := 0 }
  if m > s.params.srcSize then .raised .badArgument 0 m s
  else if m < 9 then .raised .endOfStream 0 m s
  else
    let len := s.srcLE32 5
    if len > s.params.dstSize then .raised .capacityExceeded 0 len s
    else
      ((brInit 9 m s).bind fun _ s => huffDeserialize s).atOutLen.bind fun _ s =>
        .ok () { s with
          phase := .decoding
          dec := { len := len, dataType := (s.srcAt 0).toNat, auxWidth := s.srcLE32 1, pendingLen := none } }

/-- DECOMPRESS (R294). -/
def execDecompress (s : State) : Host.Outcome State Fault Refusal := (decompress s.arg0 s).goOn

end Sys2Proof.Machine
end

