-- ==== Sys2Proof/Machine/Symbols.lean ====
section
/-! DEFINITION. The stream symbols as the decode loop of DECOMPRESS executes them (R295 to R299). A length symbol and the
distance symbol after it are two instructions: the length waits in `dec.pendingLen` (log 7). -/

namespace Sys2Proof.Machine

/-- Raise at the output position (R295). -/
def raiseAtOutLen (e : EngineError) (sym : Nat) (s : State) : Host.Outcome State Fault Refusal :=
  .next (s.raise e s.outLen.toNat sym)

/-- A symbol that is not a distance code: where a distance is due it raises SynchronizationError (R298), elsewhere it has its
own effect (R295). -/
def asPrimary (sym : Nat) (s : State) (own : Host.Outcome State Fault Refusal) : Host.Outcome State Fault Refusal :=
  match s.dec.pendingLen with
  | some _ => raiseAtOutLen .synchronizationError sym s
  | none => own

/-- Append one byte to the output: DST[OUT_LEN], then OUT_LEN + 1 (R296, R298). -/
def State.appendByte (s : State) (v : Byte) : State :=
  { s.putDst s.outLen.toNat [v] with outLen := Word.ofNat (s.outLen.toNat + 1) }

/-- The copy loop of R298, one byte at a time. -/
def copyBytes (dist : Nat) : Nat → State → State
  | 0, s => s
  | k + 1, s => copyBytes dist k (s.appendByte (s.dstAt (s.outLen.toNat - dist)))

/-- A length symbol (R298): its extra bits give the length, which waits for the distance symbol. -/
def execLength (sym : Nat) (s : State) : Host.Outcome State Fault Refusal :=
  asPrimary sym s <|
    match codeToLengthBase sym with
    | none => raiseAtOutLen .unsupportedSymbol sym s
    | some (lb, le) =>
      (((readBits le s).raiseAs .endOfStream s.outLen.toNat sym).bind fun x s1 =>
        .ok () { s1 with dec := { s1.dec with pendingLen := some (lb + x) } }).goOn

/-- The end of a back-reference of `len` bytes at distance `dist`: the checks, then the copy (R298). -/
def copyBack (len dist : Nat) (s : State) : Res Unit :=
  let out := s.outLen.toNat
  if dist > out then .raised .invalidBackReference out dist s
  else if out + len > s.dec.len then .raised .lengthMismatch out len s
  else .ok () { copyBytes dist len s with dec := { s.dec with pendingLen := none } }

/-- A distance symbol: after a length symbol it ends the back-reference (R298); elsewhere it raises SynchronizationError
(R299). -/
def execDistance (sym : Nat) (s : State) : Host.Outcome State Fault Refusal :=
  match s.dec.pendingLen with
  | none => raiseAtOutLen .synchronizationError sym s
  | some len =>
    match codeToDistanceBase sym with
    | none => raiseAtOutLen .synchronizationError sym s
    | some (db, de) =>
      (((readBits de s).raiseAs .endOfStream s.outLen.toNat sym).bind fun x s1 => copyBack len (db + x) s1).goOn

/-- An unassigned symbol (R299): UnsupportedSymbol in primary position, SynchronizationError where a distance is due. -/
def unassignedSymbol (sym : Nat) (s : State) : Host.Outcome State Fault Refusal :=
  asPrimary sym s (raiseAtOutLen .unsupportedSymbol sym s)

/-- LIT (R296). -/
def execLit (byte : Byte) (s : State) : Host.Outcome State Fault Refusal :=
  asPrimary byte.toNat s <|
    if s.outLen.toNat = s.dec.len then raiseAtOutLen .lengthMismatch byte.toNat s
    else .next (s.appendByte byte)

/-- EOS (R297), and the done of DECOMPRESS (R294). -/
def execEos (s : State) : Host.Outcome State Fault Refusal :=
  asPrimary Config.eos s <|
    if s.outLen.toNat ≠ s.dec.len then raiseAtOutLen .lengthMismatch Config.eos s
    else .next (s.complete { r0 := some s.dec.len, r1 := some s.dec.dataType, r2 := some s.dec.auxWidth,
                             r3 := some s.br.pos.toNat })

/-- LEN_257 (R190, R298). -/
def execLen257 (s : State) : Host.Outcome State Fault Refusal := execLength 257 s
/-- LEN_258 (R190, R298). -/
def execLen258 (s : State) : Host.Outcome State Fault Refusal := execLength 258 s
/-- LEN_259 (R190, R298). -/
def execLen259 (s : State) : Host.Outcome State Fault Refusal := execLength 259 s
/-- LEN_260 (R190, R298). -/
def execLen260 (s : State) : Host.Outcome State Fault Refusal := execLength 260 s
/-- LEN_261 (R190, R298). -/
def execLen261 (s : State) : Host.Outcome State Fault Refusal := execLength 261 s
/-- LEN_262 (R190, R298). -/
def execLen262 (s : State) : Host.Outcome State Fault Refusal := execLength 262 s
/-- LEN_263 (R190, R298). -/
def execLen263 (s : State) : Host.Outcome State Fault Refusal := execLength 263 s
/-- LEN_264 (R190, R298). -/
def execLen264 (s : State) : Host.Outcome State Fault Refusal := execLength 264 s
/-- LEN_265 (R190, R298). -/
def execLen265 (s : State) : Host.Outcome State Fault Refusal := execLength 265 s
/-- LEN_266 (R190, R298). -/
def execLen266 (s : State) : Host.Outcome State Fault Refusal := execLength 266 s
/-- LEN_267 (R190, R298). -/
def execLen267 (s : State) : Host.Outcome State Fault Refusal := execLength 267 s
/-- LEN_268 (R190, R298). -/
def execLen268 (s : State) : Host.Outcome State Fault Refusal := execLength 268 s
/-- LEN_269 (R190, R298). -/
def execLen269 (s : State) : Host.Outcome State Fault Refusal := execLength 269 s
/-- LEN_270 (R190, R298). -/
def execLen270 (s : State) : Host.Outcome State Fault Refusal := execLength 270 s
/-- LEN_271 (R190, R298). -/
def execLen271 (s : State) : Host.Outcome State Fault Refusal := execLength 271 s
/-- LEN_272 (R190, R298). -/
def execLen272 (s : State) : Host.Outcome State Fault Refusal := execLength 272 s
/-- LEN_273 (R190, R298). -/
def execLen273 (s : State) : Host.Outcome State Fault Refusal := execLength 273 s
/-- LEN_274 (R190, R298). -/
def execLen274 (s : State) : Host.Outcome State Fault Refusal := execLength 274 s
/-- LEN_275 (R190, R298). -/
def execLen275 (s : State) : Host.Outcome State Fault Refusal := execLength 275 s
/-- LEN_276 (R190, R298). -/
def execLen276 (s : State) : Host.Outcome State Fault Refusal := execLength 276 s
/-- LEN_277 (R190, R298). -/
def execLen277 (s : State) : Host.Outcome State Fault Refusal := execLength 277 s
/-- LEN_278 (R190, R298). -/
def execLen278 (s : State) : Host.Outcome State Fault Refusal := execLength 278 s
/-- LEN_279 (R190, R298). -/
def execLen279 (s : State) : Host.Outcome State Fault Refusal := execLength 279 s
/-- LEN_280 (R190, R298). -/
def execLen280 (s : State) : Host.Outcome State Fault Refusal := execLength 280 s
/-- LEN_281 (R190, R298). -/
def execLen281 (s : State) : Host.Outcome State Fault Refusal := execLength 281 s
/-- LEN_282 (R190, R298). -/
def execLen282 (s : State) : Host.Outcome State Fault Refusal := execLength 282 s
/-- LEN_283 (R190, R298). -/
def execLen283 (s : State) : Host.Outcome State Fault Refusal := execLength 283 s
/-- LEN_284 (R190, R298). -/
def execLen284 (s : State) : Host.Outcome State Fault Refusal := execLength 284 s
/-- LEN_285 (R190, R298). -/
def execLen285 (s : State) : Host.Outcome State Fault Refusal := execLength 285 s

/-- DIST_300 (R191, R298, R299). -/
def execDist300 (s : State) : Host.Outcome State Fault Refusal := execDistance 300 s
/-- DIST_301 (R191, R298, R299). -/
def execDist301 (s : State) : Host.Outcome State Fault Refusal := execDistance 301 s
/-- DIST_302 (R191, R298, R299). -/
def execDist302 (s : State) : Host.Outcome State Fault Refusal := execDistance 302 s
/-- DIST_303 (R191, R298, R299). -/
def execDist303 (s : State) : Host.Outcome State Fault Refusal := execDistance 303 s
/-- DIST_304 (R191, R298, R299). -/
def execDist304 (s : State) : Host.Outcome State Fault Refusal := execDistance 304 s
/-- DIST_305 (R191, R298, R299). -/
def execDist305 (s : State) : Host.Outcome State Fault Refusal := execDistance 305 s
/-- DIST_306 (R191, R298, R299). -/
def execDist306 (s : State) : Host.Outcome State Fault Refusal := execDistance 306 s
/-- DIST_307 (R191, R298, R299). -/
def execDist307 (s : State) : Host.Outcome State Fault Refusal := execDistance 307 s
/-- DIST_308 (R191, R298, R299). -/
def execDist308 (s : State) : Host.Outcome State Fault Refusal := execDistance 308 s
/-- DIST_309 (R191, R298, R299). -/
def execDist309 (s : State) : Host.Outcome State Fault Refusal := execDistance 309 s
/-- DIST_310 (R191, R298, R299). -/
def execDist310 (s : State) : Host.Outcome State Fault Refusal := execDistance 310 s
/-- DIST_311 (R191, R298, R299). -/
def execDist311 (s : State) : Host.Outcome State Fault Refusal := execDistance 311 s
/-- DIST_312 (R191, R298, R299). -/
def execDist312 (s : State) : Host.Outcome State Fault Refusal := execDistance 312 s
/-- DIST_313 (R191, R298, R299). -/
def execDist313 (s : State) : Host.Outcome State Fault Refusal := execDistance 313 s
/-- DIST_314 (R191, R298, R299). -/
def execDist314 (s : State) : Host.Outcome State Fault Refusal := execDistance 314 s
/-- DIST_315 (R191, R298, R299). -/
def execDist315 (s : State) : Host.Outcome State Fault Refusal := execDistance 315 s
/-- DIST_316 (R191, R298, R299). -/
def execDist316 (s : State) : Host.Outcome State Fault Refusal := execDistance 316 s
/-- DIST_317 (R191, R298, R299). -/
def execDist317 (s : State) : Host.Outcome State Fault Refusal := execDistance 317 s
/-- DIST_318 (R191, R298, R299). -/
def execDist318 (s : State) : Host.Outcome State Fault Refusal := execDistance 318 s
/-- DIST_319 (R191, R298, R299). -/
def execDist319 (s : State) : Host.Outcome State Fault Refusal := execDistance 319 s
/-- DIST_320 (R191, R298, R299). -/
def execDist320 (s : State) : Host.Outcome State Fault Refusal := execDistance 320 s
/-- DIST_321 (R191, R298, R299). -/
def execDist321 (s : State) : Host.Outcome State Fault Refusal := execDistance 321 s
/-- DIST_322 (R191, R298, R299). -/
def execDist322 (s : State) : Host.Outcome State Fault Refusal := execDistance 322 s
/-- DIST_323 (R191, R298, R299). -/
def execDist323 (s : State) : Host.Outcome State Fault Refusal := execDistance 323 s
/-- DIST_324 (R191, R298, R299). -/
def execDist324 (s : State) : Host.Outcome State Fault Refusal := execDistance 324 s
/-- DIST_325 (R191, R298, R299). -/
def execDist325 (s : State) : Host.Outcome State Fault Refusal := execDistance 325 s
/-- DIST_326 (R191, R298, R299). -/
def execDist326 (s : State) : Host.Outcome State Fault Refusal := execDistance 326 s
/-- DIST_327 (R191, R298, R299). -/
def execDist327 (s : State) : Host.Outcome State Fault Refusal := execDistance 327 s
/-- DIST_328 (R191, R298, R299). -/
def execDist328 (s : State) : Host.Outcome State Fault Refusal := execDistance 328 s
/-- DIST_329 (R191, R298, R299). -/
def execDist329 (s : State) : Host.Outcome State Fault Refusal := execDistance 329 s
/-- DIST_330 (R191, R298, R299). -/
def execDist330 (s : State) : Host.Outcome State Fault Refusal := execDistance 330 s
/-- DIST_331 (R191, R298, R299). -/
def execDist331 (s : State) : Host.Outcome State Fault Refusal := execDistance 331 s

end Sys2Proof.Machine
end

