-- ==== Sys2Proof/Machine/Dispatch.lean ====
section
/-! DEFINITION. exec: one arm per constructor of Instr. -/

namespace Sys2Proof.Machine

def exec (i : Instr) (s : State) : Host.Outcome State Fault Refusal :=
  match i with
  | .nop => Sys2Proof.Machine.execNop s
  | .bwInit => Sys2Proof.Machine.execBwInit s
  | .bwBits => Sys2Proof.Machine.execBwBits s
  | .bwFlush => Sys2Proof.Machine.execBwFlush s
  | .brInit => Sys2Proof.Machine.execBrInit s
  | .brBits => Sys2Proof.Machine.execBrBits s
  | .lenEnc => Sys2Proof.Machine.execLenEnc s
  | .lenDec => Sys2Proof.Machine.execLenDec s
  | .distEnc => Sys2Proof.Machine.execDistEnc s
  | .distDec => Sys2Proof.Machine.execDistDec s
  | .lzMatch => Sys2Proof.Machine.execLzMatch s
  | .freqCount => Sys2Proof.Machine.execFreqCount s
  | .huffBuild => Sys2Proof.Machine.execHuffBuild s
  | .huffCodes => Sys2Proof.Machine.execHuffCodes s
  | .huffSerialize => Sys2Proof.Machine.execHuffSerialize s
  | .huffEncode => Sys2Proof.Machine.execHuffEncode s
  | .huffDeserialize => Sys2Proof.Machine.execHuffDeserialize s
  | .huffDecodeSym => Sys2Proof.Machine.execHuffDecodeSym s
  | .compress => Sys2Proof.Machine.execCompress s
  | .decompress => Sys2Proof.Machine.execDecompress s
  | .lit byte => Sys2Proof.Machine.execLit byte s
  | .eos => Sys2Proof.Machine.execEos s
  | .len257 => Sys2Proof.Machine.execLen257 s
  | .len258 => Sys2Proof.Machine.execLen258 s
  | .len259 => Sys2Proof.Machine.execLen259 s
  | .len260 => Sys2Proof.Machine.execLen260 s
  | .len261 => Sys2Proof.Machine.execLen261 s
  | .len262 => Sys2Proof.Machine.execLen262 s
  | .len263 => Sys2Proof.Machine.execLen263 s
  | .len264 => Sys2Proof.Machine.execLen264 s
  | .len265 => Sys2Proof.Machine.execLen265 s
  | .len266 => Sys2Proof.Machine.execLen266 s
  | .len267 => Sys2Proof.Machine.execLen267 s
  | .len268 => Sys2Proof.Machine.execLen268 s
  | .len269 => Sys2Proof.Machine.execLen269 s
  | .len270 => Sys2Proof.Machine.execLen270 s
  | .len271 => Sys2Proof.Machine.execLen271 s
  | .len272 => Sys2Proof.Machine.execLen272 s
  | .len273 => Sys2Proof.Machine.execLen273 s
  | .len274 => Sys2Proof.Machine.execLen274 s
  | .len275 => Sys2Proof.Machine.execLen275 s
  | .len276 => Sys2Proof.Machine.execLen276 s
  | .len277 => Sys2Proof.Machine.execLen277 s
  | .len278 => Sys2Proof.Machine.execLen278 s
  | .len279 => Sys2Proof.Machine.execLen279 s
  | .len280 => Sys2Proof.Machine.execLen280 s
  | .len281 => Sys2Proof.Machine.execLen281 s
  | .len282 => Sys2Proof.Machine.execLen282 s
  | .len283 => Sys2Proof.Machine.execLen283 s
  | .len284 => Sys2Proof.Machine.execLen284 s
  | .len285 => Sys2Proof.Machine.execLen285 s
  | .dist300 => Sys2Proof.Machine.execDist300 s
  | .dist301 => Sys2Proof.Machine.execDist301 s
  | .dist302 => Sys2Proof.Machine.execDist302 s
  | .dist303 => Sys2Proof.Machine.execDist303 s
  | .dist304 => Sys2Proof.Machine.execDist304 s
  | .dist305 => Sys2Proof.Machine.execDist305 s
  | .dist306 => Sys2Proof.Machine.execDist306 s
  | .dist307 => Sys2Proof.Machine.execDist307 s
  | .dist308 => Sys2Proof.Machine.execDist308 s
  | .dist309 => Sys2Proof.Machine.execDist309 s
  | .dist310 => Sys2Proof.Machine.execDist310 s
  | .dist311 => Sys2Proof.Machine.execDist311 s
  | .dist312 => Sys2Proof.Machine.execDist312 s
  | .dist313 => Sys2Proof.Machine.execDist313 s
  | .dist314 => Sys2Proof.Machine.execDist314 s
  | .dist315 => Sys2Proof.Machine.execDist315 s
  | .dist316 => Sys2Proof.Machine.execDist316 s
  | .dist317 => Sys2Proof.Machine.execDist317 s
  | .dist318 => Sys2Proof.Machine.execDist318 s
  | .dist319 => Sys2Proof.Machine.execDist319 s
  | .dist320 => Sys2Proof.Machine.execDist320 s
  | .dist321 => Sys2Proof.Machine.execDist321 s
  | .dist322 => Sys2Proof.Machine.execDist322 s
  | .dist323 => Sys2Proof.Machine.execDist323 s
  | .dist324 => Sys2Proof.Machine.execDist324 s
  | .dist325 => Sys2Proof.Machine.execDist325 s
  | .dist326 => Sys2Proof.Machine.execDist326 s
  | .dist327 => Sys2Proof.Machine.execDist327 s
  | .dist328 => Sys2Proof.Machine.execDist328 s
  | .dist329 => Sys2Proof.Machine.execDist329 s
  | .dist330 => Sys2Proof.Machine.execDist330 s
  | .dist331 => Sys2Proof.Machine.execDist331 s

end Sys2Proof.Machine
end

