-- ==== Sys2Proof/Machine/Engine.lean ====
section
/-! DEFINITION. The Engine's turn: fetching and executing the latched command (R141, R144), or the next symbol of the
payload (R295). -/

namespace Sys2Proof.Machine

/-- Execute the latched command word (R141). No run latches an illegal word, which ends at accept (R144, State.submit); in a
state that holds one latched, it raises the same error. -/
def runCommand (s : State) : Host.Outcome State Fault Refusal :=
  match decodeCommand s.latchCmd.toNat with
  | .ok i => exec i s
  | .error _ => .next (s.raise .illegalCommand 0 s.latchCmd.toNat)

/-- Execute a decoded symbol; one outside the alphabet raises (R295, R299). -/
def runSymbol (sym : Nat) (s : State) : Host.Outcome State Fault Refusal :=
  match decodeSymbol sym with
  | .ok i => exec i s
  | .error _ => unassignedSymbol sym s

/-- One pass of the decode loop: decodeSym, then the symbol (R295). -/
def decodePass (s : State) : Host.Outcome State Fault Refusal :=
  match (decodeSym s).atOutLen with
  | .ok r s1 => runSymbol r.1 s1
  | .raised e pos sym s1 => .next (s1.raise e pos sym)
  | .stuck f => .fault f

/-- The Engine's turn. An IDLE Engine does nothing (R333). -/
def engineStep (s : State) : Host.Outcome State Fault Refusal :=
  match s.phase with
  | .idle => .next s
  | .latched => runCommand s
  | .decoding => decodePass s

end Sys2Proof.Machine
end

