-- ==== Sys2Proof/Machine/HostPort.lean ====
section
/-! DEFINITION. The host port (20_memory.md): register and element reads and writes, with the busy rules R78 and R80. -/

namespace Sys2Proof.Machine

/-- The ID constant (R22). -/
def idWord : Word := 0x000100074C5A4855

/-- What a register holds (R21 to R36). CTRL always reads 0 (R23). -/
def State.regValue (s : State) : Reg → Word
  | .id => idWord
  | .ctrl => 0
  | .status => s.statusWord
  | .errPos => s.errPos
  | .errSym => s.errSym
  | .cmd => s.cmd
  | .arg0 => s.arg.r0 | .arg1 => s.arg.r1 | .arg2 => s.arg.r2 | .arg3 => s.arg.r3
  | .res0 => s.res.r0 | .res1 => s.res.r1 | .res2 => s.res.r2 | .res3 => s.res.r3
  | .cfgWindow => s.cfg.window
  | .cfgMinMatch => s.cfg.minMatch
  | .cfgMaxMatch => s.cfg.maxMatch
  | .cfgMaxChain => s.cfg.maxChain
  | .cfgLazyDiv => s.cfg.lazyDiv
  | .bwPos => s.bw.pos | .bwAcc => s.bw.acc | .bwCnt => s.bw.cnt | .bwTotal => s.bw.total
  | .brPos => s.br.pos | .brEnd => s.br.stop | .brAcc => s.br.acc | .brCnt => s.br.cnt
  | .tokCount => s.tokCount
  | .treeRoot => s.tree.root
  | .treeNodes => s.tree.nodes
  | .treeValid => Word.ofNat s.tree.valid.toNat
  | .outLen => s.outLen

/-- The registers whose reads R78 leaves free while BUSY. -/
def regFreeWhileBusy : Reg → Bool
  | .errPos | .errSym | .res0 | .res1 | .res2 | .res3 | .bwPos | .bwAcc | .bwCnt | .bwTotal
  | .brPos | .brEnd | .brAcc | .brCnt | .tokCount | .treeRoot | .treeNodes | .treeValid | .outLen => true
  | .id | .ctrl | .status | .cmd | .arg0 | .arg1 | .arg2 | .arg3
  | .cfgWindow | .cfgMinMatch | .cfgMaxMatch | .cfgMaxChain | .cfgLazyDiv => false

/-- What R78 leaves free while BUSY: those registers, and every element but SRC's. -/
def freeWhileBusy : Target → Bool
  | .reg r => regFreeWhileBusy r
  | .reserved => false
  | .elem m _ => m != .src

/-- How many bytes an access to a target moves (R71). -/
def accessWidth : Target → Nat
  | .elem m _ => m.width
  | _ => 8

/-- What a target holds; a reserved offset reads 0 (R21). -/
def State.targetValue (s : State) : Target → Word
  | .reg r => s.regValue r
  | .reserved => 0
  | .elem m i => s.elem m i

/-- The k-th free value, as wide as the access (R78; log 3, 19). -/
def freeReadValue (t : Target) (k : Nat) : Word := ((Config.busyRead k).setWidth (8 * accessWidth t)).setWidth 64

/-- A host read (R77, R78). -/
def hostRead (t : Target) (s : State) : State :=
  if s.busy && freeWhileBusy t then { s with portData := freeReadValue t s.draws, draws := s.draws + 1 }
  else { s with portData := s.targetValue t }

/-- A host write to CTRL, honoured at any time: bit 0 performs a soft reset (R23, R352). -/
def writeCtrl (v : Word) (s : State) : State := if v.getLsbD 0 then s.softReset else s

/-- The commands whose accept sets TREE_VALID to 0 (R35). -/
def replacesTree (i : Instr) : Bool := i == .huffBuild || i == .huffDeserialize

/-- TREE_VALID at the accept of a command (R35). -/
def TreeRegs.accepted (t : TreeRegs) (i : Instr) : TreeRegs := { t with valid := t.valid && !replacesTree i }

/-- A host write of w to CMD while BUSY = 0: accept (R141), which also clears TREE_VALID for HUFF_BUILD and
HUFF_DESERIALIZE (R35). A word that is no command's completes at once with IllegalCommand(0, w), in the same step (R144,
R322). -/
def State.submit (s : State) (w : Word) : State :=
  match decodeCommand w.toNat with
  | .ok i => { s.accept w with tree := s.tree.accepted i }
  | .error _ => (s.accept w).raise .illegalCommand 0 w.toNat

/-- A host write to a register while BUSY = 0 (R21 to R36). RO registers ignore it. -/
def writeReg (r : Reg) (v : Word) (s : State) : State :=
  match r with
  | .ctrl => writeCtrl v s
  | .status => { s with status := s.status.hostWrite v }
  | .cmd => s.submit v
  | .arg0 => { s with arg := { s.arg with r0 := v } }
  | .arg1 => { s with arg := { s.arg with r1 := v } }
  | .arg2 => { s with arg := { s.arg with r2 := v } }
  | .arg3 => { s with arg := { s.arg with r3 := v } }
  | .cfgWindow => { s with cfg := { s.cfg with window := v } }
  | .cfgMinMatch => { s with cfg := { s.cfg with minMatch := v } }
  | .cfgMaxMatch => { s with cfg := { s.cfg with maxMatch := v } }
  | .cfgMaxChain => { s with cfg := { s.cfg with maxChain := v } }
  | .cfgLazyDiv => { s with cfg := { s.cfg with lazyDiv := v } }
  | .tokCount => { s with tokCount := Word.ofNat (min v.toNat s.params.tokCap) }
  | .id | .errPos | .errSym | .res0 | .res1 | .res2 | .res3 | .bwPos | .bwAcc | .bwCnt | .bwTotal
  | .brPos | .brEnd | .brAcc | .brCnt | .treeRoot | .treeNodes | .treeValid | .outLen => s

/-- A host write to an element while BUSY = 0; CODE and NODE ignore it (R40). -/
def writeElem (m : MemId) (i : Nat) (v : Word) (s : State) : State :=
  match m with
  | .src => { s with src := s.src.put i [v.setWidth 8] }
  | .dst => s.putDst i [v.setWidth 8]
  | .tok => s.putTok i [v.setWidth 32]
  | .freq => s.putFreq i [v.setWidth 32]
  | .code | .node => s

/-- A host write (R77). While BUSY it is dropped and sets WDROP, except a write to CTRL (R80; log 11 for reserved offsets). -/
def hostWrite (t : Target) (v : Word) (s : State) : State :=
  if s.busy && t != .reg .ctrl then { s with status := s.status.dropped }
  else match t with
    | .reg r => writeReg r v s
    | .reserved => s
    | .elem m i => writeElem m i v s

/-- One operation on the host port. A malformed one is a bus error, which the model refuses (R72; log 9). -/
def portStep (op : PortOp) (s : State) : Host.Outcome State Fault Refusal :=
  match op with
  | .read addr bytes =>
    match accessTarget s.params addr bytes with
    | some t => .next (hostRead t s)
    | none => .refused (.busError addr bytes)
  | .write addr bytes data =>
    match accessTarget s.params addr bytes with
    | some t => .next (hostWrite t data s)
    | none => .refused (.busError addr bytes)

end Sys2Proof.Machine
end

