-- ==== Sys2Proof/Machine/Turns.lean ====
section
/-! DEFINITION. What one turn does, and how an instruction's word is put where the Engine fetches it. Step.lean calls these. -/

namespace Sys2Proof.Machine

/-- poll (R117): while BUSY the Engine moves and the host goes on polling; the read that finds BUSY = 0 ends it (log 18). -/
def pollStep (rest : List Turn) (s : State) : Host.Outcome State Fault Refusal :=
  if s.busy then engineStep s
  else .next (hostRead (.reg .status) { s with pending := rest })

/-- One turn (R4; log 5). -/
def turnStep (t : Turn) (rest : List Turn) (s : State) : Host.Outcome State Fault Refusal :=
  match t with
  | .port op => portStep op { s with pending := rest }
  | .poll => pollStep rest s
  | .engine => engineStep { s with pending := rest }

/-- With no turn pending the Engine moves while it is BUSY; an IDLE block stays as it is (R333, R358; log 6). -/
def stepTurns (s : State) : Host.Outcome State Fault Refusal :=
  match s.pending with
  | [] => engineStep s
  | t :: rest => turnStep t rest s

/-- The word of DECOMPRESS (R101). -/
def decompressWord : Word := 0x31

/-- Submit a command word and give the Engine the next turn (log 8). -/
def State.fetchCommand (s : State) (w : Word) : State :=
  { s.submit w with pending := .engine :: s.pending }

/-- Put a symbol where the decode loop fetches the next one: the tree whose one leaf is that symbol, which decodeSym
reaches without reading a bit (R273). A machine outside the decode loop is put inside it, with DST_SIZE as
originalLength (log 8). -/
def State.fetchSymbol (s : State) (sym : Nat) : State :=
  let d := if s.phase = .decoding then s
           else { s.accept decompressWord with
                  phase := .decoding
                  dec := { len := s.params.dstSize, dataType := 0, auxWidth := 0, pendingLen := none } }
  { d.putNode 0 [(NodeEntry.leaf (sym % 512)).toWord] with
    tree := { root := 0, nodes := 1, valid := true }
    pending := .engine :: s.pending }

end Sys2Proof.Machine
end

