-- ==== Sys2Proof/Machine/Step.lean ====
section
/-! DEFINITION. The step of the machine, and where it fetches its next instruction. -/

namespace Sys2Proof.Machine

/-- One step: one turn of the Host or of the Engine (R4, R140). -/
def step (s : State) : Host.Outcome State Fault Refusal := stepTurns s

/-- `s` with a table word where step fetches its next instruction: a SYM9 word of at most 16 bits as the next symbol of
the payload, a CMD64 word as the latched command (log 8). -/
def State.withFetchWord (s : State) (nbits w : Nat) : State :=
  if nbits ≤ 16 then s.fetchSymbol w else s.fetchCommand (Word.ofNat w)

end Sys2Proof.Machine
end

