-- ==== Sys2Proof/Machine/HostProgram.lean ====
section
/-! DEFINITION. The host program (R117, R118): what each statement does on the host port. -/

namespace Sys2Proof.Machine

/-- wr NAME, v. -/
def writeRegOp (r : Reg) (v : Nat) : Turn := .port (.write r.offset 8 (Word.ofNat v))
/-- rd NAME. -/
def readRegOp (r : Reg) : Turn := .port (.read r.offset 8)
/-- wm MEM[i], v. -/
def writeElemOp (m : MemId) (i v : Nat) : Turn := .port (.write (elemAddr m i) m.width (Word.ofNat v))
/-- rm MEM[i]. -/
def readElemOp (m : MemId) (i : Nat) : Turn := .port (.read (elemAddr m i) m.width)

/-- wr ARG0, a0, then wr ARG1, a1, and so on: one write per operand given (R118). -/
def operandWrites (ops : List Nat) : List Turn :=
  (ops.zip [Reg.arg0, Reg.arg1, Reg.arg2, Reg.arg3]).map (fun x => writeRegOp x.2 x.1)

/-- One wm per byte (R118). -/
def byteWrites (m : MemId) : Nat → List Byte → List Turn
  | _, [] => []
  | i, b :: bs => writeElemOp m i b.toNat :: byteWrites m (i + 1) bs

/-- The port operations of a statement (R117), a pseudo-instruction expanded (R118). -/
def expand : Stmt → List Turn
  | .wr r v => [writeRegOp r v]
  | .rd r => [readRegOp r]
  | .wm m i v => [writeElemOp m i v]
  | .rm m i => [readElemOp m i]
  | .cmd i => [writeRegOp .cmd i.wordValue]
  | .poll => [.poll]
  | .call i ops => operandWrites ops ++ [writeRegOp .cmd i.wordValue, .poll]
  | .ldb m off bytes => byteWrites m off bytes
  | .expect r _ => [readRegOp r]

/-- The turns of a program. -/
def expandAll (prog : List Stmt) : List Turn := prog.flatMap expand

/-- The state in which a host starts a program (log 5). -/
def State.withProgram (s : State) (prog : List Stmt) : State := { s with pending := expandAll prog }

end Sys2Proof.Machine
end

