-- ==== Sys2Proof/Machine/HashIndex.lean ====
section
/-! DEFINITION. The reference structure of R221: the HEAD and PREV arrays of R48, built by inserting positions in order, and
the walk over them. No instruction uses it; a statement says it yields chain(s). -/

namespace Sys2Proof.Machine

/-- HEAD, by hash value, and PREV, by position modulo W (R48, R221). None is "empty". -/
structure HashIndex where
  head : Nat → Option Nat
  prev : Nat → Option Nat

/-- The index at the start of LZ_MATCH (R48). -/
def HashIndex.empty : HashIndex := { head := fun _ => none, prev := fun _ => none }

/-- Insert position q (R221). -/
def HashIndex.insert (w : Nat) (b : Nat → Nat) (x : HashIndex) (q : Nat) : HashIndex where
  head := fun h => if h = lzHash b q then some q else x.head h
  prev := fun i => if i = q % w then x.head (lzHash b q) else x.prev i

/-- The index a search at s meets: every q < s, inserted in increasing order (R214, R221). -/
def HashIndex.upTo (w : Nat) (b : Nat → Nat) (s : Nat) : HashIndex :=
  (List.range s).foldl (HashIndex.insert w b) HashIndex.empty

/-- The walk for s from c: at most `budget` positions, each within distance W (R221). -/
def HashIndex.walk (x : HashIndex) (w s : Nat) : Nat → Option Nat → List Nat
  | 0, _ => []
  | _ + 1, none => []
  | budget + 1, some c => if s - c ≤ w then c :: x.walk w s budget (x.prev (c % w)) else []

/-- The walk for s: it starts at HEAD[hash(s)] and visits at most CHAIN positions (R221). -/
def HashIndex.candidates (c : LzConfig) (b : Nat → Nat) (s : Nat) : List Nat :=
  (HashIndex.upTo c.window b s).walk c.window s c.maxChain ((HashIndex.upTo c.window b s).head (lzHash b s))

end Sys2Proof.Machine
end

