-- ==== Sys2Proof/Safety.lean ====
section
/-! DEFINITION. The terms of the claims: the states a run can reach (invariants), what completion and an error leave
(R143, R321), the streams as bit strings (R8, R75), and the replay of a token stream (R223). -/

namespace Sys2Proof.Machine

/-! ## Invariants -/

/-- Every listed index lies below the memory's element count (R40). -/
abbrev Mem.below {w : Nat} (m : Mem w) (n : Nat) : Prop := ∀ c ∈ m, c.1 < n

/-- The six memories are in canonical form (log 2) and hold no element outside R40's counts. -/
abbrev State.memInv (s : State) : Prop :=
  (s.src.wf ∧ s.src.below s.params.srcSize) ∧ (s.dst.wf ∧ s.dst.below s.params.dstSize) ∧
    (s.tok.wf ∧ s.tok.below s.params.tokCap) ∧ (s.freq.wf ∧ s.freq.below Config.symbols) ∧
    (s.code.wf ∧ s.code.below Config.symbols) ∧ (s.node.wf ∧ s.node.below s.params.nodeCap)

/-- R160, R30: BW_CNT ≤ 7, BW_ACC < 2^BW_CNT, and the writer stays inside DST. -/
abbrev State.writerInv (s : State) : Prop :=
  s.bw.cnt.toNat ≤ 7 ∧ s.bw.acc.toNat < 2 ^ s.bw.cnt.toNat ∧ s.bw.pos.toNat ≤ s.params.dstSize

/-- R31, R167, R168: BR_CNT ≤ 7, BR_ACC < 2^BR_CNT, BR_POS ≤ BR_END ≤ SRC_SIZE. -/
abbrev State.readerInv (s : State) : Prop :=
  s.br.cnt.toNat ≤ 7 ∧ s.br.acc.toNat < 2 ^ s.br.cnt.toNat ∧ s.br.pos.toNat ≤ s.br.stop.toNat ∧
    s.br.stop.toNat ≤ s.params.srcSize

/-- R24: DONE and ERR are never both 1, both are 0 while BUSY, and ERRCODE is 0 exactly when ERR is 0. -/
abbrev State.flagInv (s : State) : Prop :=
  ¬(s.status.done = true ∧ s.status.err = true) ∧
    (s.busy = true → s.status.done = false ∧ s.status.err = false) ∧
    s.status.err = s.status.code.isSome

/-- R34 and R36: TOK_COUNT ≤ TOK_CAP and OUT_LEN ≤ DST_SIZE; in the decode loop OUT_LEN ≤ originalLength ≤ DST_SIZE, and
a length that waits is a length of R190. -/
abbrev State.countInv (s : State) : Prop :=
  s.tokCount.toNat ≤ s.params.tokCap ∧ s.outLen.toNat ≤ s.params.dstSize ∧
    (s.phase = .decoding → s.outLen.toNat ≤ s.dec.len ∧ s.dec.len ≤ s.params.dstSize ∧
      s.dec.pendingLen.all (fun l => decide (3 ≤ l ∧ l ≤ 258)) = true)

/-- R144: only a command's word is ever latched, since an illegal word ends at accept. -/
abbrev State.latchInv (s : State) : Prop :=
  s.phase = .latched → ∃ row ∈ commandTable, row.1 = s.latchCmd.toNat

/-- The invariant of registers and memories. -/
abbrev State.Inv (s : State) : Prop :=
  s.params.legal ∧ s.memInv ∧ s.writerInv ∧ s.readerInv ∧ s.flagInv ∧ s.countInv ∧ s.latchInv

/-- R35: TREE_VALID = 1 only while NODE holds a complete tree of TREE_NODES nodes rooted at TREE_ROOT; the decode loop has
one. -/
abbrev State.TreeInv (s : State) : Prop :=
  (s.tree.valid = true → s.tree?.any (fun t => t.size == s.tree.nodes.toNat) = true) ∧
    (s.phase = .decoding → s.tree.valid = true)

/-! ## Turns -/

/-- The Engine moves next in `s`, from `s0`: on an Engine turn, on a poll (which stays pending), or with nothing pending
(log 5, 6, 18). -/
def State.EngineMovesFrom (s s0 : State) : Prop :=
  (∃ rest, s.pending = .engine :: rest ∧ s0 = { s with pending := rest }) ∨
    (∃ rest, s.pending = .poll :: rest ∧ s0 = s) ∨ (s.pending = [] ∧ s0 = s)

/-! ## What a command's end leaves -/

/-- A state after done with these results (R143): RES, ERR_POS = ERR_SYM = 0, DONE, no error, BUSY = 0. -/
def State.afterDone (s : State) (res : Quad) : State :=
  { s with res := res, errPos := 0, errSym := 0,
           status := { done := true, err := false, wdrop := s.status.wdrop, code := none },
           phase := .idle, dec := DecodeVars.zero }

/-- A state after raise e(pos, sym) (R321): RES zeroed, the context, ERR and the code, BUSY = 0, nothing rolled back. -/
def State.afterRaise (s : State) (e : EngineError) (pos sym : Nat) : State :=
  { s with res := Quad.zero, errPos := Word.ofNat pos, errSym := Word.ofNat sym,
           status := { done := false, err := true, wdrop := s.status.wdrop, code := some e },
           phase := .idle, dec := DecodeVars.zero }

/-! ## Streams as bit strings -/

/-- A byte's bits, most significant first (R75). -/
def byteBits (v : Byte) : List Bool := bitsOf 8 v.toNat

/-- The bits of DST[a..b). -/
def State.dstBits (s : State) (a b : Nat) : List Bool := (List.range (b - a)).flatMap (fun j => byteBits (s.dstAt (a + j)))

/-- The bits of SRC[a..b). -/
def State.srcBits (s : State) (a b : Nat) : List Bool := (List.range (b - a)).flatMap (fun j => byteBits (s.srcAt (a + j)))

/-- The bits the writer has appended since byte a: those in DST, then the pending ones (R160). -/
def State.writerBits (s : State) (a : Nat) : List Bool :=
  s.dstBits a s.bw.pos.toNat ++ bitsOf s.bw.cnt.toNat s.bw.acc.toNat

/-- The bits the reader has still to return: the cached ones, then those of SRC[BR_POS..BR_END) (R168). -/
def State.readerBits (s : State) : List Bool :=
  bitsOf s.br.cnt.toNat s.br.acc.toNat ++ s.srcBits s.br.pos.toNat s.br.stop.toNat

/-- The bits of a sequence of writeBits calls, in order (R162). -/
def bitsOfWrites (ws : List (Nat × Nat)) : List Bool := ws.flatMap (fun x => bitsOf x.2 x.1)

/-- A sequence of readBits calls: the values in order (R170, R171). -/
def readAll : List Nat → State → Res (List Nat)
  | [], s => .ok [] s
  | n :: ns, s => (readBits n s).bind (fun v s1 => (readAll ns s1).bind (fun vs s2 => .ok (v :: vs) s2))

/-- BW_INIT o, a sequence of writeBits calls, then flush (R166). -/
def writeStream (o : Nat) (ws : List (Nat × Nat)) (s : State) : Res Unit :=
  (bwInit o s).bind (fun _ s1 => (writeAll ws s1).bind (fun _ s2 => flush s2))

/-- BR_INIT a b, then a sequence of readBits calls (R171). -/
def readStream (a b : Nat) (ns : List Nat) (s : State) : Res (List Nat) :=
  (brInit a b s).bind (fun _ s1 => readAll ns s1)

/-- The bits HUFF_ENCODE writes for a token: its code, then its extra bits (R115, R248). -/
def State.tokenBits (s : State) (t : Token) : List Bool :=
  let ce := CodeEntry.ofWord (s.codeAt t.sym)
  bitsOf ce.len ce.bits ++ bitsOf t.xbits t.xval

/-- Every leaf symbol of a tree fits the 9 bits of R111. -/
def CodeTree.symbolsFit : CodeTree → Bool
  | .leaf sym => sym < 512
  | .node l r => l.symbolsFit && r.symbolsFit

/-- The least leaf symbol of a tree (R106). -/
def CodeTree.least : CodeTree → Nat
  | .leaf sym => sym
  | .node l r => min l.least r.least

/-- The NODE words of a tree whose nodes stand in pre-order from index i (R106, R270, R271). -/
def CodeTree.arena (i : Nat) : CodeTree → List Word
  | .leaf sym => [BitVec.ofNat 64 (sym + 2 ^ 63)]
  | .node l r =>
    BitVec.ofNat 64 (min l.least r.least + (i + 1) * 2 ^ 16 + (i + 1 + l.size) * 2 ^ 32) ::
      (l.arena (i + 1) ++ r.arena (i + 1 + l.size))

/-- The bits of one node of a serialized tree, in pre-order: an internal node's tag, or a leaf's tag and symbol (R114). -/
def itemBits : Option Nat → List Bool
  | none => [false]
  | some sym => true :: bitsOf 9 sym

/-- `bits` begin with the nodes `items` of a serialized tree (none for an internal node, a symbol for a leaf), a subtree is
still due after each of them, and the next node cannot be read: NODE is full, no tag is left, or a leaf's tag with fewer than 9
bits after it. `cnt` nodes are then allocated and the bits `left` not consumed (R271). -/
def TreeBreaksOff (cap : Nat) (bits : List Bool) (items : List (Option Nat)) (cnt : Nat) (left : List Bool) : Prop :=
  (∀ k, k ≤ items.length → (items.take k).countP Option.isSome ≤ (items.take k).countP Option.isNone) ∧
    (∀ sym, some sym ∈ items → sym < 2 ^ 9) ∧
    ∃ rest, bits = items.flatMap itemBits ++ rest ∧
      ((items.length = cap ∧ cnt = cap ∧ left = rest) ∨
        (items.length < cap ∧ cnt = items.length + 1 ∧
          ((rest = [] ∧ left = []) ∨ (rest = true :: left ∧ left.length < 9))))

/-! ## The replay of a token stream -/

/-- Append `len` bytes copied one at a time from `dist` back (R216, R298). -/
def copyOut (dist : Nat) : Nat → List Nat → List Nat
  | 0, out => out
  | k + 1, out => copyOut dist k (out ++ [out.getD (out.length - dist) 0])

/-- Replay tokens over the output so far, with every check of R223: literals carry no extra bits; a length token is
followed by a distance token; M ≤ l ≤ Lmax, 1 ≤ d ≤ min(W, p), XVAL < 2^XBITS and XBITS ≤ 14; EOS comes last and once. -/
def replay (c : LzConfig) : List Token → List Nat → Option (List Nat)
  | [], _ => none
  | [t], out => if t = eosToken then some out else none
  | t :: u :: rest, out =>
    if t.sym < 256 then
      if t.xbits = 0 ∧ t.xval = 0 then replay c (u :: rest) (out ++ [t.sym]) else none
    else
      match codeToLengthBase t.sym, codeToDistanceBase u.sym with
      | some (lb, le), some (db, de) =>
        if t.xbits = le ∧ t.xval < 2 ^ le ∧ le ≤ 14 ∧ u.xbits = de ∧ u.xval < 2 ^ de ∧ de ≤ 14 ∧
            c.minMatch ≤ lb + t.xval ∧ lb + t.xval ≤ c.maxMatch ∧
            1 ≤ db + u.xval ∧ db + u.xval ≤ min c.window out.length
        then replay c rest (copyOut (db + u.xval) (lb + t.xval) out) else none
      | _, _ => none

end Sys2Proof.Machine
end

