-- ==== Sys2Proof/Certificates/Slice0/Obligations.lean ====
section
/-! DEFINITION. The statements for the provers. Each docstring names the rule it formalises. "cmd operands" are the latched
ARG registers (R103, R141). -/

open Sys2Proof Sys2Proof.Machine

/-! ## Encoding -/

/-- R100, R101, R110: a format's bytes decode to an instruction exactly when they are that instruction's encoding. -/
def Obligations.DecodeEncodeAgree : Prop :=
  ∀ (f : Format) (bytes : List Byte) (i : Instr), decode f bytes = .ok i ↔ (i.format = f ∧ bytes = encode i)

/-- R101, R110: one word of each family, written out from the spec, decodes to its instruction. -/
def Obligations.SpecWordsDecode : Prop :=
  decode .cmd64 [0x00, 0, 0, 0, 0, 0, 0, 0] = .ok .nop ∧
  decode .cmd64 [0x02, 0, 0, 0, 0, 0, 0, 0] = .ok .bwBits ∧
  decode .cmd64 [0x0A, 0, 0, 0, 0, 0, 0, 0] = .ok .distEnc ∧
  decode .cmd64 [0x10, 0, 0, 0, 0, 0, 0, 0] = .ok .lzMatch ∧
  decode .cmd64 [0x1B, 0, 0, 0, 0, 0, 0, 0] = .ok .huffSerialize ∧
  decode .cmd64 [0x21, 0, 0, 0, 0, 0, 0, 0] = .ok .huffDecodeSym ∧
  decode .cmd64 [0x31, 0, 0, 0, 0, 0, 0, 0] = .ok .decompress ∧
  decode .sym9 [0x41, 0x00] = .ok (.lit 0x41) ∧ decode .sym9 [0x00, 0x01] = .ok .eos ∧
  decode .sym9 [0x1D, 0x01] = .ok .len285 ∧ decode .sym9 [0x2C, 0x01] = .ok .dist300

/-- R102, R110: which command words and which symbols are no instruction. -/
def Obligations.UnassignedWordsAreRejected : Prop :=
  (∀ w : Nat, (∃ r, decodeCommand w = .error r) ↔
    (w / 2 ^ 8 ≠ 0 ∨ (0x06 ≤ w ∧ w ≤ 0x07) ∨ (0x0C ≤ w ∧ w ≤ 0x0F) ∨ (0x11 ≤ w ∧ w ≤ 0x17) ∨
      (0x1D ≤ w ∧ w ≤ 0x1F) ∨ (0x22 ≤ w ∧ w ≤ 0x2F) ∨ 0x32 ≤ w)) ∧
  (∀ sym : Nat, sym < 512 →
    ((∃ r, decodeSymbol sym = .error r) ↔ ((286 ≤ sym ∧ sym ≤ 299) ∨ 332 ≤ sym)))

/-! ## Steps and control -/

/-- R141: when the Engine moves with a latched command word, step runs that command (whose move it is: log 5, 6, 18). -/
def Obligations.StepRunsLatchedCommand : Prop :=
  ∀ (s s0 : State) (i : Instr), s.EngineMovesFrom s0 → s.phase = .latched →
    decodeCommand s.latchCmd.toNat = .ok i → step s = exec i s0

/-- R295, R299, R322: when the Engine moves in the decode loop, step runs the symbol decodeSym gives, in the state after the
bits it read. A descent that fails is MalformedTree(OUT_LEN, sym) with decodeSym's own sym. An unassigned symbol raises at
OUT_LEN: UnsupportedSymbol, or SynchronizationError where a distance is due. (One symbol a step, and the length that waits in
dec.pendingLen: log 4, 7. Whose move it is: log 5, 6, 18.) -/
def Obligations.StepRunsDecodedSymbol : Prop :=
  ∀ (s s0 : State), s.EngineMovesFrom s0 → s.phase = .decoding →
    (∀ sym d t i, decodeSym s0 = .ok (sym, d) t → decodeSymbol sym = .ok i → step s = exec i t) ∧
    (∀ sym d t, decodeSym s0 = .ok (sym, d) t → (286 ≤ sym ∧ sym ≤ 299) ∨ 332 ≤ sym →
      step s = .next (t.afterRaise (if t.dec.pendingLen = none then .unsupportedSymbol else .synchronizationError)
        t.outLen.toNat sym)) ∧
    (∀ e pos sym t, decodeSym s0 = .raised e pos sym t →
      e = .malformedTree ∧ t.outLen = s.outLen ∧ step s = .next (t.afterRaise .malformedTree t.outLen.toNat sym)) ∧
    (∀ f, decodeSym s0 ≠ .stuck f)

/-- R144: a word that is no command's word, written to CMD while BUSY = 0, ends at once, in the step of the write, with
IllegalCommand(0, w): beside what accept (R141: CMD, the latches) and an error (R321) write, nothing changes. STATUS then reads
0x0B04, with WDROP as it was. -/
def Obligations.IllegalCommandRaises : Prop :=
  ∀ (s : State) (w : Word) (rest : List Turn), s.phase = .idle → s.pending = .port (.write 0x028 8 w) :: rest →
    (∀ i : Instr, i.isCommand = true → w.toNat ≠ i.wordValue) →
    ∃ t, step s = .next t ∧
      t = State.afterRaise { s with pending := rest, cmd := w, latchCmd := w, latchArg := s.arg } .illegalCommand 0 w.toNat ∧
      t.statusWord = if s.status.wdrop then 0x0B0C else 0x0B04

/-- R141, R35: a command's word written to CMD while BUSY = 0 is latched with the ARG registers; DONE, ERR and ERRCODE are
cleared, WDROP is kept and BUSY set. HUFF_BUILD and HUFF_DESERIALIZE also set TREE_VALID to 0. -/
def Obligations.CmdWriteIsAccepted : Prop :=
  ∀ (s : State) (i : Instr) (w : Word) (rest : List Turn), i.isCommand = true → w = Word.ofNat i.wordValue →
    s.phase = .idle → s.pending = .port (.write 0x028 8 w) :: rest →
    step s = .next { s with
      pending := rest, cmd := w, latchCmd := w, latchArg := s.arg,
      status := { done := false, err := false, wdrop := s.status.wdrop, code := none }, phase := .latched,
      tree := { s.tree with valid := if i = .huffBuild ∨ i = .huffDeserialize then false else s.tree.valid } }

/-- R143, R321: an instruction (exec) that ends a running command leaves either DONE with no error, or ERR with a code and zeroed results. -/
def Obligations.CommandEndsInDoneOrError : Prop :=
  ∀ (i : Instr) (s t : State), s.busy = true → exec i s = .next t → t.busy = false →
    (t.status.done = true ∧ t.status.err = false ∧ t.status.code = none ∧ t.errPos = 0 ∧ t.errSym = 0) ∨
    (t.status.done = false ∧ t.status.err = true ∧ t.status.code ≠ none ∧
      t.res = { r0 := 0, r1 := 0, r2 := 0, r3 := 0 })

/-! ## Host port -/

/-- R80 (and log 11 for a reserved offset): while BUSY a host write to anything but CTRL changes nothing but WDROP. -/
def Obligations.BusyWriteIsDropped : Prop :=
  ∀ (s : State) (addr bytes : Nat) (v : Word) (x : Target) (rest : List Turn), s.busy = true →
    s.pending = .port (.write addr bytes v) :: rest → accessTarget s.params addr bytes = some x → x ≠ .reg .ctrl →
    step s = .next { s with pending := rest, status := { s.status with wdrop := true } }

/-- R77, R78: a host read changes nothing but the model's record of it; it is exact while BUSY = 0, and of what the Engine
does not write; while BUSY a read of Engine-written state draws the next free value, as wide as the access. The first clauses say
what each register but STATUS (R22, R23, R25 to R36) and each element (R40; log 2, 3) holds. -/
def Obligations.HostReads : Prop :=
  ∀ s : State,
    let registers : List (Reg × Word) :=
      [(.id, 0x000100074C5A4855), (.ctrl, 0), (.errPos, s.errPos), (.errSym, s.errSym), (.cmd, s.cmd),
        (.arg0, s.arg.r0), (.arg1, s.arg.r1), (.arg2, s.arg.r2), (.arg3, s.arg.r3),
        (.res0, s.res.r0), (.res1, s.res.r1), (.res2, s.res.r2), (.res3, s.res.r3),
        (.cfgWindow, s.cfg.window), (.cfgMinMatch, s.cfg.minMatch), (.cfgMaxMatch, s.cfg.maxMatch),
        (.cfgMaxChain, s.cfg.maxChain), (.cfgLazyDiv, s.cfg.lazyDiv),
        (.bwPos, s.bw.pos), (.bwAcc, s.bw.acc), (.bwCnt, s.bw.cnt), (.bwTotal, s.bw.total),
        (.brPos, s.br.pos), (.brEnd, s.br.stop), (.brAcc, s.br.acc), (.brCnt, s.br.cnt),
        (.tokCount, s.tokCount), (.treeRoot, s.tree.root), (.treeNodes, s.tree.nodes),
        (.treeValid, if s.tree.valid then 1 else 0), (.outLen, s.outLen)]
    (∀ x ∈ registers, s.targetValue (.reg x.1) = x.2) ∧ s.targetValue .reserved = 0 ∧
    (∀ i, s.srcAt i = (List.lookup i s.src).getD (Config.srcFill i) ∧
      s.dstAt i = (List.lookup i s.dst).getD (Config.dstFill s.ramEpoch i) ∧
      s.tokAt i = (List.lookup i s.tok).getD (Config.tokFill s.ramEpoch i) ∧
      s.freqAt i = (List.lookup i s.freq).getD (Config.freqFill s.ramEpoch i) ∧
      s.codeAt i = (List.lookup i s.code).getD (Config.codeFill s.ramEpoch i) ∧
      s.nodeAt i = (List.lookup i s.node).getD (Config.nodeFill s.ramEpoch i) ∧
      s.targetValue (.elem .src i) = (s.srcAt i).setWidth 64 ∧ s.targetValue (.elem .dst i) = (s.dstAt i).setWidth 64 ∧
      s.targetValue (.elem .tok i) = (s.tokAt i).setWidth 64 ∧ s.targetValue (.elem .freq i) = (s.freqAt i).setWidth 64 ∧
      s.targetValue (.elem .code i) = s.codeAt i ∧ s.targetValue (.elem .node i) = s.nodeAt i) ∧
    ∀ (addr bytes : Nat) (x : Target) (rest : List Turn),
      s.pending = .port (.read addr bytes) :: rest → accessTarget s.params addr bytes = some x →
      let engineWritten : Prop :=
        (∃ m i, m ≠ .src ∧ x = .elem m i) ∨
        (∃ r, r ∈ [Reg.errPos, .errSym, .res0, .res1, .res2, .res3, .bwPos, .bwAcc, .bwCnt, .bwTotal,
          .brPos, .brEnd, .brAcc, .brCnt, .tokCount, .treeRoot, .treeNodes, .treeValid, .outLen] ∧ x = .reg r)
      (s.busy = false ∨ ¬engineWritten → step s = .next { s with pending := rest, portData := s.targetValue x }) ∧
      (s.busy = true → engineWritten → step s = .next { s with
        pending := rest, portData := ((Config.busyRead s.draws).setWidth (8 * bytes)).setWidth 64, draws := s.draws + 1 })

/-- R22: ID reads as its constant at any time and takes no write; its fields are 'LZHU', 7 and 1. -/
def Obligations.IdReadsConstant : Prop :=
  (∀ (s : State) (rest : List Turn), s.pending = .port (.read 0x000 8) :: rest →
    step s = .next { s with pending := rest, portData := 0x000100074C5A4855 }) ∧
  (∀ (s : State) (v : Word) (rest : List Turn), s.phase = .idle → s.pending = .port (.write 0x000 8 v) :: rest →
    step s = .next { s with pending := rest }) ∧
  bitField 0x000100074C5A4855 0 32 = 0x4C5A4855 ∧ bitField 0x000100074C5A4855 32 16 = 7 ∧
  bitField 0x000100074C5A4855 48 16 = 1 ∧ State.reset.regValue .id = 0x000100074C5A4855

/-- R24, R320: the layout of STATUS, and the number of every error kind. -/
def Obligations.StatusReadLayout : Prop :=
  ∀ (s : State) (rest : List Turn), s.pending = .port (.read 0x010 8) :: rest →
    ∃ t, step s = .next t ∧
      t.portData.getLsbD 0 = decide (s.phase ≠ .idle) ∧ t.portData.getLsbD 1 = s.status.done ∧
      t.portData.getLsbD 2 = s.status.err ∧ t.portData.getLsbD 3 = s.status.wdrop ∧
      bitField t.portData.toNat 4 4 = 0 ∧
      (s.status.code, bitField t.portData.toNat 8 8) ∈ [(none, 0), (some EngineError.endOfStream, 1),
        (some .malformedTree, 2), (some .synchronizationError, 3), (some .invalidBackReference, 4),
        (some .unsupportedSymbol, 5), (some .lengthMismatch, 6), (some .badArgument, 7), (some .capacityExceeded, 8),
        (some .noTree, 9), (some .codeTooLong, 10), (some .illegalCommand, 11)] ∧
      t.portData.toNat / 2 ^ 16 = 0

/-- R21, R71, R72: in a legal instance an access names element i of a memory exactly when it is at base + width * i with that
width, a register exactly when it is 8 bytes at that register's offset in R21's table, and a reserved offset exactly when it is
8 bytes at any other aligned offset below 0x1000; step refuses every other access (log 9). The bases, widths and counts are
R71's. -/
def Obligations.AccessNamesWholeElement : Prop :=
  ∀ (p : Config.Params) (addr bytes : Nat), p.legal →
    let registers : List (Nat × Reg) :=
      [(0x000, .id), (0x008, .ctrl), (0x010, .status), (0x018, .errPos), (0x020, .errSym), (0x028, .cmd),
        (0x030, .arg0), (0x038, .arg1), (0x040, .arg2), (0x048, .arg3),
        (0x050, .res0), (0x058, .res1), (0x060, .res2), (0x068, .res3),
        (0x080, .cfgWindow), (0x088, .cfgMinMatch), (0x090, .cfgMaxMatch), (0x098, .cfgMaxChain), (0x0A0, .cfgLazyDiv),
        (0x0C0, .bwPos), (0x0C8, .bwAcc), (0x0D0, .bwCnt), (0x0D8, .bwTotal),
        (0x0E0, .brPos), (0x0E8, .brEnd), (0x0F0, .brAcc), (0x0F8, .brCnt),
        (0x100, .tokCount), (0x108, .treeRoot), (0x110, .treeNodes), (0x118, .treeValid), (0x120, .outLen)]
    (∀ x ∈ [(MemId.freq, 0x00100000000, 4, 512), (.code, 0x00200000000, 8, 512), (.node, 0x00300000000, 8, p.nodeCap),
        (.tok, 0x10000000000, 4, p.srcSize + 1), (.src, 0x20000000000, 1, p.srcSize), (.dst, 0x30000000000, 1, p.dstSize)],
      x.1.base = x.2.1 ∧ x.1.width = x.2.2.1 ∧ x.1.count p = x.2.2.2) ∧
    (∀ m i, accessTarget p addr bytes = some (.elem m i) ↔
      (i < m.count p ∧ bytes = m.width ∧ addr = m.base + m.width * i)) ∧
    (∀ r, accessTarget p addr bytes = some (.reg r) ↔ ((addr, r) ∈ registers ∧ bytes = 8)) ∧
    (accessTarget p addr bytes = some .reserved ↔
      (addr < 0x1000 ∧ addr % 8 = 0 ∧ bytes = 8 ∧ addr ∉ registers.map Prod.fst)) ∧
    ((¬(addr < 0x1000 ∧ addr % 8 = 0 ∧ bytes = 8) ∧
        ∀ (m : MemId) (i : Nat), i < m.count p → ¬(bytes = m.width ∧ addr = m.base + m.width * i)) →
      ∀ (s : State) (v : Word) (rest : List Turn), s.params = p →
        (s.pending = .port (.read addr bytes) :: rest → step s = .refused (.busError addr bytes)) ∧
        (s.pending = .port (.write addr bytes v) :: rest → step s = .refused (.busError addr bytes)))

/-- R28, R32, R40, R24, R34: a host write while BUSY = 0 to an ARG or CFG register or to an element of SRC, DST, TOK or FREQ
stores its value there and nowhere else (of a w-byte write the low 8w bits of the port's 64-bit data: log 20); a write to TOK_COUNT stores min(v, TOK_CAP); a 1 in bit 3 of STATUS clears WDROP
and no other bit matters. -/
def Obligations.IdleWriteStores : Prop :=
  ∀ (s : State) (addr bytes : Nat) (v : Word) (x : Target) (rest : List Turn), s.phase = .idle →
    s.pending = .port (.write addr bytes v) :: rest → accessTarget s.params addr bytes = some x →
    ((∃ r, r ∈ [Reg.arg0, .arg1, .arg2, .arg3, .cfgWindow, .cfgMinMatch, .cfgMaxMatch, .cfgMaxChain, .cfgLazyDiv] ∧
          x = .reg r) ∨ (∃ m i, m ∈ [MemId.src, .dst, .tok, .freq] ∧ x = .elem m i) →
      ∃ t, step s = .next t ∧ t.targetValue x = (v.setWidth (8 * bytes)).setWidth 64 ∧
        ∀ y, y ≠ x → t.targetValue y = s.targetValue y) ∧
    (x = .reg .tokCount → step s = .next { s with
      pending := rest, tokCount := Word.ofNat (min v.toNat (s.params.srcSize + 1)) }) ∧
    (x = .reg .status → step s = .next { s with
      pending := rest, status := { s.status with wdrop := if v.getLsbD 3 then false else s.status.wdrop } })

/-- R21, R40: host writes while BUSY = 0 to read-only registers, reserved offsets, CODE and NODE are ignored. -/
def Obligations.ReadOnlyTargetsIgnoreWrites : Prop :=
  ∀ (s : State) (addr bytes : Nat) (v : Word) (x : Target) (rest : List Turn), s.phase = .idle →
    s.pending = .port (.write addr bytes v) :: rest → accessTarget s.params addr bytes = some x →
    (x = .reserved ∨ (∃ i, x = .elem .code i) ∨ (∃ i, x = .elem .node i) ∨
      (∃ r, r ∈ [Reg.id, .errPos, .errSym, .res0, .res1, .res2, .res3, .bwPos, .bwAcc, .bwCnt, .bwTotal,
        .brPos, .brEnd, .brAcc, .brCnt, .treeRoot, .treeNodes, .treeValid, .outLen] ∧ x = .reg r)) →
    step s = .next { s with pending := rest }

/-- R352, R23: a write of 1 to CTRL bit 0, at any time, gives every register its power-on value and an IDLE Engine, and keeps
SRC; while BUSY = 0 all memories are kept; while BUSY = 1 the five others hold nothing written and their elements are free
values of a new epoch (log 17). A write of 0 to bit 0 has no effect, at any time: it is not dropped, and WDROP stays (R80). -/
def Obligations.SoftReset : Prop :=
  ∀ (s : State) (v : Word) (rest : List Turn), s.pending = .port (.write 0x008 8 v) :: rest →
    (v.getLsbD 0 = true →
      ∃ t, step s = .next t ∧ (∀ r, t.regValue r = (State.powerOn s.params).regValue r) ∧ t.phase = .idle ∧
        t.params = s.params ∧ t.pending = rest ∧ (∀ i, t.srcAt i = s.srcAt i) ∧
        (s.phase = .idle → ∀ m i, t.elem m i = s.elem m i) ∧
        (s.phase ≠ .idle → ∀ i, t.dstAt i = Config.dstFill (s.ramEpoch + 1) i ∧
          t.tokAt i = Config.tokFill (s.ramEpoch + 1) i ∧ t.freqAt i = Config.freqFill (s.ramEpoch + 1) i ∧
          t.codeAt i = Config.codeFill (s.ramEpoch + 1) i ∧ t.nodeAt i = Config.nodeFill (s.ramEpoch + 1) i)) ∧
    (v.getLsbD 0 = false → step s = .next { s with pending := rest })

/-- R351: the power-on state of every instance: the register values, free memory contents, an IDLE Engine. -/
def Obligations.PowerOnState : Prop :=
  ∀ p : Config.Params,
    (State.powerOn p).regValue .id = 0x000100074C5A4855 ∧ (State.powerOn p).regValue .cfgWindow = 32768 ∧
    (State.powerOn p).regValue .cfgMinMatch = 3 ∧ (State.powerOn p).regValue .cfgMaxMatch = 258 ∧
    (State.powerOn p).regValue .cfgMaxChain = 128 ∧ (State.powerOn p).regValue .cfgLazyDiv = 2 ∧
    (∀ r, r ∉ [Reg.id, .cfgWindow, .cfgMinMatch, .cfgMaxMatch, .cfgMaxChain, .cfgLazyDiv] →
      (State.powerOn p).regValue r = 0) ∧
    (State.powerOn p).phase = .idle ∧
    (∀ i, (State.powerOn p).srcAt i = Config.srcFill i ∧ (State.powerOn p).dstAt i = Config.dstFill 0 i ∧
      (State.powerOn p).tokAt i = Config.tokFill 0 i ∧ (State.powerOn p).freqAt i = Config.freqFill 0 i ∧
      (State.powerOn p).codeAt i = Config.codeFill 0 i ∧ (State.powerOn p).nodeAt i = Config.nodeFill 0 i)

/-! ## NOP and the bit stream -/

/-- R142: NOP completes; RES0 to RES3 and all other state are unchanged. -/
def Obligations.NopCompletes : Prop := ∀ s : State, exec .nop s = .next (s.afterDone s.res)

/-- R161: BW_INIT o. -/
def Obligations.BwInitCompletes : Prop :=
  ∀ s : State,
    (s.latchArg.r0.toNat ≤ s.params.dstSize →
      exec .bwInit s = .next (({ s with bw := { pos := s.latchArg.r0, acc := 0, cnt := 0, total := 0 } } : State).afterDone
        s.res)) ∧
    (s.params.dstSize < s.latchArg.r0.toNat →
      exec .bwInit s = .next (s.afterRaise .badArgument 0 s.latchArg.r0.toNat))

/-- R162, R163: BW_BITS v, n with n ≤ 57 appends the low n bits of v: the whole bytes of the accumulator go to DST from BW_POS;
without room it raises CapacityExceeded(BW_POS, n), and n > 57 is BadArgument(0, n), with nothing changed (0 as R163 and vector
W6 write it; n is ARG1, and R322's general row would give 1: log 24). -/
def Obligations.BwBitsAppends : Prop :=
  ∀ s : State, let v := s.latchArg.r0.toNat; let n := s.latchArg.r1.toNat
    let pos := s.bw.pos.toNat; let c := s.bw.cnt.toNat + n; let nb := c / 8
    let a := s.bw.acc.toNat * 2 ^ n + v % 2 ^ n
    (n ≤ 57 → pos + nb ≤ s.params.dstSize →
      ∃ t, exec .bwBits s = .next (State.afterDone { s with dst := t, bw := {
          pos := Word.ofNat (pos + nb), cnt := Word.ofNat (c - 8 * nb), acc := Word.ofNat (a % 2 ^ (c - 8 * nb)),
          total := s.bw.total + Word.ofNat n } } s.res) ∧
        ∀ j, ({ s with dst := t } : State).dstAt j =
          if pos ≤ j ∧ j < pos + nb then BitVec.ofNat 8 (a / 2 ^ (c - 8 * (j - pos + 1))) else s.dstAt j) ∧
    (n ≤ 57 → s.params.dstSize < pos + nb → exec .bwBits s = .next (s.afterRaise .capacityExceeded pos n)) ∧
    (57 < n → exec .bwBits s = .next (s.afterRaise .badArgument 0 n))

/-- R164, R165: BW_FLUSH puts the pending bits in the high bits of one byte, zeros below; with none pending it writes
nothing; without room it raises CapacityExceeded(BW_POS, 0). RES0 = BW_POS; BW_TOTAL is kept. -/
def Obligations.BwFlushCompletes : Prop :=
  ∀ s : State, let pos := s.bw.pos.toNat; let cnt := s.bw.cnt.toNat
    (cnt = 0 → exec .bwFlush s = .next (State.afterDone { s with bw := { s.bw with acc := 0, cnt := 0 } }
      { s.res with r0 := s.bw.pos })) ∧
    (0 < cnt → pos + 1 ≤ s.params.dstSize → s.params.legal →
      ∃ t, exec .bwFlush s = .next (State.afterDone { s with
          dst := t, bw := { pos := Word.ofNat (pos + 1), acc := 0, cnt := 0, total := s.bw.total } }
          { s.res with r0 := Word.ofNat (pos + 1) }) ∧
        ∀ j, ({ s with dst := t } : State).dstAt j =
          if j = pos then BitVec.ofNat 8 (s.bw.acc.toNat * 2 ^ (8 - cnt)) else s.dstAt j) ∧
    (0 < cnt → s.params.dstSize < pos + 1 → exec .bwFlush s = .next (s.afterRaise .capacityExceeded pos 0))

/-- R167: BR_INIT s, e. -/
def Obligations.BrInitCompletes : Prop :=
  ∀ s : State, let a := s.latchArg.r0; let e := s.latchArg.r1
    (a.toNat ≤ e.toNat → e.toNat ≤ s.params.srcSize →
      exec .brInit s = .next (State.afterDone { s with br := { pos := a, stop := e, acc := 0, cnt := 0 } } s.res)) ∧
    (e.toNat < a.toNat ∨ s.params.srcSize < e.toNat →
      exec .brInit s = .next (s.afterRaise .badArgument 0 a.toNat))

/-- R168, R169: BR_BITS n returns the next n bits as a number, the first the most significant, and leaves the rest; with fewer
left it raises EndOfStream(BR_POS, n), and n > 57 is BadArgument(0, n), with nothing changed. It loads no byte before it
needs one. -/
def Obligations.BrBitsTakesBits : Prop :=
  ∀ s : State, s.params.legal → s.readerInv → let n := s.latchArg.r0.toNat
    (n ≤ 57 → n ≤ s.readerBits.length →
      ∃ t, exec .brBits s = .next t ∧ t.readerBits = s.readerBits.drop n ∧ t.readerInv ∧ t.br.stop = s.br.stop ∧
        t.br.pos.toNat = s.br.pos.toNat + (n - s.br.cnt.toNat + 7) / 8 ∧
        t.br.cnt.toNat = s.br.cnt.toNat + 8 * ((n - s.br.cnt.toNat + 7) / 8) - n ∧
        t = State.afterDone { s with br := t.br }
          { s.res with r0 := Word.ofNat (valBits (s.readerBits.take n)) }) ∧
    (n ≤ 57 → s.readerBits.length < n →
      exec .brBits s = .next (s.afterRaise .endOfStream s.br.pos.toNat n)) ∧
    (57 < n → exec .brBits s = .next (s.afterRaise .badArgument 0 n))

/-- R166: after BW_INIT o, writeBits calls totalling T bits and flush, without error, BW_POS = o + ceil(T / 8), and DST from o
holds the T bits in order, then 8 ceil(T / 8) - T zero bits. -/
def Obligations.OutputLengthLaw : Prop :=
  ∀ (s t : State) (o : Nat) (ws : List (Nat × Nat)), s.params.legal → (∀ x ∈ ws, x.2 ≤ 57) →
    writeStream o ws s = .ok () t →
    t.bw.pos.toNat = o + (totalBits ws + 7) / 8 ∧
      t.dstBits o t.bw.pos.toNat =
        bitsOfWrites ws ++ List.replicate (8 * ((totalBits ws + 7) / 8) - totalBits ws) false

/-- R170: what writeBits and flush wrote, copied to SRC, comes back through readBits of the same bit counts. -/
def Obligations.BitStreamRoundTrip : Prop :=
  ∀ (s t u : State) (o a : Nat) (ws : List (Nat × Nat)), s.params.legal → u.params.legal → (∀ x ∈ ws, x.2 ≤ 57) →
    writeStream o ws s = .ok () t → a + (t.bw.pos.toNat - o) ≤ u.params.srcSize →
    (∀ j, j < t.bw.pos.toNat - o → u.srcAt (a + j) = t.dstAt (o + j)) →
    ∃ v, readStream a (a + (t.bw.pos.toNat - o)) (ws.map Prod.snd) u = .ok (ws.map (fun x => x.1 % 2 ^ x.2)) v

/-- R171: after BR_INIT a, e and readBits calls totalling T bits without error, BR_POS = a + ceil(T / 8) and
BR_CNT = 8 ceil(T / 8) - T. -/
def Obligations.ReaderPositionLaw : Prop :=
  ∀ (s t : State) (a e : Nat) (ns vs : List Nat), s.params.legal → (∀ n ∈ ns, n ≤ 57) →
    readStream a e ns s = .ok vs t →
    t.br.pos.toNat = a + (ns.sum + 7) / 8 ∧ t.br.cnt.toNat = 8 * ((ns.sum + 7) / 8) - ns.sum

/-! ## Alphabet tables -/

/-- R193, R195, R197, R199: LEN_ENC, LEN_DEC, DIST_ENC, which checks the window first, and DIST_DEC. -/
def Obligations.AlphabetCommandsComplete : Prop :=
  ∀ s : State, let x := s.latchArg.r0.toNat; let w := s.cfg.window.toNat
    (3 ≤ x → x ≤ 258 → exec .lenEnc s = .next (s.afterDone
      { r0 := Word.ofNat (lengthToCode x).sym, r1 := Word.ofNat (lengthToCode x).xbits,
        r2 := Word.ofNat (lengthToCode x).xval, r3 := s.res.r3 })) ∧
    (x < 3 ∨ 258 < x → exec .lenEnc s = .next (s.afterRaise .badArgument 0 x)) ∧
    (257 ≤ x → x ≤ 285 → ∃ b e, codeToLengthBase x = some (b, e) ∧
      exec .lenDec s = .next (s.afterDone { s.res with r0 := Word.ofNat b, r1 := Word.ofNat e })) ∧
    (x < 257 ∨ 285 < x → exec .lenDec s = .next (s.afterRaise .badArgument 0 x)) ∧
    (1 ≤ w → w ≤ 65536 → 1 ≤ x → x ≤ w → exec .distEnc s = .next (s.afterDone
      { r0 := Word.ofNat (distanceToCode x).sym, r1 := Word.ofNat (distanceToCode x).xbits,
        r2 := Word.ofNat (distanceToCode x).xval, r3 := s.res.r3 })) ∧
    (w < 1 ∨ 65536 < w → exec .distEnc s = .next (s.afterRaise .badArgument 0x80 w)) ∧
    (1 ≤ w → w ≤ 65536 → x < 1 ∨ w < x → exec .distEnc s = .next (s.afterRaise .badArgument 0 x)) ∧
    (300 ≤ x → x ≤ 331 → ∃ b e, codeToDistanceBase x = some (b, e) ∧
      exec .distDec s = .next (s.afterDone { s.res with r0 := Word.ofNat b, r1 := Word.ofNat e })) ∧
    (x < 300 ∨ 331 < x → exec .distDec s = .next (s.afterRaise .badArgument 0 x))

/-- R200: the tables are bijective on their domains. The rows are those of R190 and R191, 258 is code 285 (R192), and the
alphabet is R110's. -/
def Obligations.AlphabetBijection : Prop :=
  (∀ c b e, codeToLengthBase c = some (b, e) ↔ (c, b, e) ∈
    [(257, 3, 0), (258, 4, 0), (259, 5, 0), (260, 6, 0), (261, 7, 0), (262, 8, 0), (263, 9, 0), (264, 10, 0),
      (265, 11, 1), (266, 13, 1), (267, 15, 1), (268, 17, 1), (269, 19, 2), (270, 23, 2), (271, 27, 2), (272, 31, 2),
      (273, 35, 3), (274, 43, 3), (275, 51, 3), (276, 59, 3), (277, 67, 4), (278, 83, 4), (279, 99, 4), (280, 115, 4),
      (281, 131, 5), (282, 163, 5), (283, 195, 5), (284, 227, 5), (285, 258, 0)]) ∧
  (∀ c b e, codeToDistanceBase c = some (b, e) ↔ (c, b, e) ∈
    [(300, 1, 0), (301, 2, 0), (302, 3, 0), (303, 4, 0), (304, 5, 1), (305, 7, 1), (306, 9, 2), (307, 13, 2),
      (308, 17, 3), (309, 25, 3), (310, 33, 4), (311, 49, 4), (312, 65, 5), (313, 97, 5), (314, 129, 6), (315, 193, 6),
      (316, 257, 7), (317, 385, 7), (318, 513, 8), (319, 769, 8), (320, 1025, 9), (321, 1537, 9), (322, 2049, 10),
      (323, 3073, 10), (324, 4097, 11), (325, 6145, 11), (326, 8193, 12), (327, 12289, 12), (328, 16385, 13),
      (329, 24577, 13), (330, 32769, 14), (331, 49153, 14)]) ∧
  (∀ l, 3 ≤ l → l ≤ 258 → (lengthToCode l).xval < 2 ^ (lengthToCode l).xbits ∧
    ∃ b, codeToLengthBase (lengthToCode l).sym = some (b, (lengthToCode l).xbits) ∧ b + (lengthToCode l).xval = l) ∧
  lengthToCode 258 = { sym := 285, xbits := 0, xval := 0 } ∧
  (∀ d, 1 ≤ d → d ≤ 65536 → (distanceToCode d).xval < 2 ^ (distanceToCode d).xbits ∧
    ∃ b, codeToDistanceBase (distanceToCode d).sym = some (b, (distanceToCode d).xbits) ∧
      b + (distanceToCode d).xval = d) ∧
  (∀ l l', 3 ≤ l → l ≤ 258 → 3 ≤ l' → l' ≤ 258 → lengthToCode l = lengthToCode l' → l = l') ∧
  (∀ d d', 1 ≤ d → d ≤ 65536 → 1 ≤ d' → d' ≤ 65536 → distanceToCode d = distanceToCode d' → d = d') ∧
  (∀ c, codeToLengthBase c ≠ none → inAlphabet c = true ∧ codeToDistanceBase c = none) ∧
  (∀ c, codeToDistanceBase c ≠ none → inAlphabet c = true) ∧
  (∀ c, inAlphabet c = true ↔ (c ≤ 285 ∨ (300 ≤ c ∧ c ≤ 331)))

/-! ## Matcher -/

/-- R211, R213, R218 to R220: LZ_MATCH n writes the token stream of SRC[0..n) to TOK as R104's words, its length to TOK_COUNT
and RES0. The stream from scan position p is EOS at the end of the input; else the match found at p, taken when it is at least M
long and the one found at p + 1 is neither longer nor as long at a distance below d0 div LDIV; else the byte at p. An n beyond SRC
is BadArgument(0, n); then the first bad configuration register, in R211's order, is BadArgument(offset, value). That FREQ, CODE and
NODE stay as they are is the model's reading of R213 against R355 (log 25). -/
def Obligations.LzMatchCompletes : Prop :=
  ∀ s : State, let n := s.latchArg.r0.toNat
    let window := s.cfg.window.toNat; let minMatch := s.cfg.minMatch.toNat; let maxMatch := s.cfg.maxMatch.toNat
    let maxChain := s.cfg.maxChain.toNat; let lazyDiv := s.cfg.lazyDiv.toNat
    let okWindow := 1 ≤ window ∧ window ≤ 65536
    let okMax := 3 ≤ maxMatch ∧ maxMatch ≤ 258
    let okMin := 3 ≤ minMatch ∧ minMatch ≤ maxMatch
    let okChain := 1 ≤ maxChain ∧ maxChain ≤ 65536
    let okLazy := 1 ≤ lazyDiv ∧ lazyDiv ≤ 65536
    s.lzConfig = { window := window, minMatch := minMatch, maxMatch := maxMatch, maxChain := maxChain, lazyDiv := lazyDiv } ∧
    let found := findMatch s.lzConfig (fun i => (s.srcAt i).toNat) n
    (n ≤ s.params.srcSize → okWindow → okMax → okMin → okChain → okLazy →
      ∃ (tok : Mem 32) (scan : Nat → List Token), let toks := scan 0
        exec .lzMatch s = .next (State.afterDone { s with tok := tok, tokCount := Word.ofNat toks.length }
          { s.res with r0 := Word.ofNat toks.length }) ∧
        (∀ j x, toks[j]? = some x → ({ s with tok := tok } : State).tokAt j =
          BitVec.ofNat 32 (x.sym + x.xbits * 2 ^ 12 + x.xval * 2 ^ 16)) ∧
        (∀ j, toks.length ≤ j → ({ s with tok := tok } : State).tokAt j = s.tokAt j) ∧
        toks = lzTokens s.lzConfig s.input n ∧
        (∀ p, n ≤ p → scan p = [{ sym := 256, xbits := 0, xval := 0 }]) ∧
        (∀ p, p < n → let m0 := found p; let m1 := if p + 1 < n then found (p + 1) else (0, 0)
          scan p = if minMatch ≤ m0.1 ∧ ¬(m0.1 < m1.1 ∨ (m1.1 = m0.1 ∧ m1.2 < m0.2 / lazyDiv))
            then lengthToCode m0.1 :: distanceToCode m0.2 :: scan (p + m0.1)
            else { sym := (s.srcAt p).toNat, xbits := 0, xval := 0 } :: scan (p + 1))) ∧
    (s.params.srcSize < n → exec .lzMatch s = .next (s.afterRaise .badArgument 0 n)) ∧
    (n ≤ s.params.srcSize →
      (¬okWindow → exec .lzMatch s = .next (s.afterRaise .badArgument 0x80 window)) ∧
      (okWindow → ¬okMax → exec .lzMatch s = .next (s.afterRaise .badArgument 0x90 maxMatch)) ∧
      (okWindow → okMax → ¬okMin → exec .lzMatch s = .next (s.afterRaise .badArgument 0x88 minMatch)) ∧
      (okWindow → okMax → okMin → ¬okChain → exec .lzMatch s = .next (s.afterRaise .badArgument 0x98 maxChain)) ∧
      (okWindow → okMax → okMin → okChain → ¬okLazy →
        exec .lzMatch s = .next (s.afterRaise .badArgument 0xA0 lazyDiv)))

/-- R212, R214 to R217: chain(s) lists, most recent first, the positions before s within the window whose 15-bit hash is that
of s, and stops at CHAIN of them; matchLen is the greatest agreeing length up to the limit; findMatch gives the longest match in
the chain and the first in chain order among equals, and (0, 0) with fewer than 3 bytes left. -/
def Obligations.MatchIsLongestInChain : Prop :=
  (∀ (c : LzConfig) (b : Nat → Nat) (s : Nat),
    let hash := fun i => ((b i * 2 ^ 10) ^^^ (b (i + 1) * 2 ^ 5) ^^^ b (i + 2)) % 2 ^ 15
    let chain := lzChain c b s
    chain.Pairwise (fun q q' => q' < q) ∧ chain.length ≤ c.maxChain ∧
    (∀ q ∈ chain, q < s ∧ s - q ≤ c.window ∧ hash q = hash s) ∧
    (∀ q, q < s → s - q ≤ c.window → hash q = hash s → q ∉ chain →
      chain.length = c.maxChain ∧ ∀ q' ∈ chain, q < q')) ∧
  (∀ (b : Nat → Nat) (q s l limit : Nat), l ≤ limit →
    (l ≤ matchLen b q s limit ↔ ∀ i, i < l → b (q + i) = b (s + i))) ∧
  (∀ (c : LzConfig) (b : Nat → Nat) (n s : Nat), n < s + 3 → findMatch c b n s = (0, 0)) ∧
  (∀ (c : LzConfig) (b : Nat → Nat) (n s : Nat), s + 3 ≤ n →
    let limit := min c.maxMatch (n - s); let m := findMatch c b n s
    (∀ q ∈ lzChain c b s, matchLen b q s limit ≤ m.1) ∧
    (m.1 = 0 → m.2 = 0) ∧
    (0 < m.1 → ∃ before q after, lzChain c b s = before ++ q :: after ∧ matchLen b q s limit = m.1 ∧ m.2 = s - q ∧
      ∀ q' ∈ before, matchLen b q' s limit < m.1))

/-- R222: a stream has at most n + 1 tokens, so TOK never overflows. -/
def Obligations.TokenCountBound : Prop :=
  ∀ (c : LzConfig) (b : Nat → Nat) (n : Nat) (p : Config.Params), c.firstBad = none →
    (lzTokens c b n).length ≤ n + 1 ∧ (n ≤ p.srcSize → (lzTokens c b n).length ≤ p.tokCap)

/-- R223: replayed, the token stream rebuilds the input, and every token meets the rule's conditions, which replay checks. -/
def Obligations.TokenStreamRebuildsInput : Prop :=
  ∀ (c : LzConfig) (b : Nat → Nat) (n : Nat), c.firstBad = none → (∀ i, b i < 256) →
    replay c (lzTokens c b n) [] = some ((List.range n).map b)

/-- R221: the walk over HEAD and PREV visits exactly chain(s). -/
def Obligations.HashIndexYieldsChain : Prop :=
  ∀ (c : LzConfig) (b : Nat → Nat) (s : Nat), 1 ≤ c.window → HashIndex.candidates c b s = lzChain c b s

/-- R224: TOK and k after LZ_MATCH depend on SRC[0..n) and the five CFG values only. -/
def Obligations.MatcherDeterminism : Prop :=
  ∀ s s' t t' : State, s.latchArg.r0 = s'.latchArg.r0 → s.cfg = s'.cfg → s.lzConfig.firstBad = none →
    s.latchArg.r0.toNat ≤ s.params.srcSize → s.latchArg.r0.toNat ≤ s'.params.srcSize →
    s.params.legal → s'.params.legal →
    (∀ i, i < s.latchArg.r0.toNat → s.srcAt i = s'.srcAt i) →
    exec .lzMatch s = .next t → exec .lzMatch s' = .next t' →
    t.res.r0 = t'.res.r0 ∧ t.tokCount = t'.tokCount ∧ ∀ j, j < t.tokCount.toNat → t.tokAt j = t'.tokAt j

/-! ## Huffman encoder -/

/-- R240, R104: FREQ_COUNT counts each symbol of TOK[0..TOK_COUNT). The first symbol outside the alphabet is
UnsupportedSymbol(i, s), and the first that would take a count past 2^32 - 1 is CapacityExceeded(i, s); both leave FREQ as it
was. A token is the three fields of its word. -/
def Obligations.FreqCountCounts : Prop :=
  ∀ s : State, let syms := s.tokens.map Token.sym
    let counts := fun (l : List Nat) => (∀ x ∈ l, inAlphabet x = true) ∧ ∀ x, l.count x ≤ 2 ^ 32 - 1
    s.tokens = (List.range s.tokCount.toNat).map (fun i => let w := (s.tokAt i).toNat
      { sym := w % 2 ^ 9, xbits := w / 2 ^ 12 % 2 ^ 4, xval := w / 2 ^ 16 }) ∧
    (counts syms →
      ∃ freq, exec .freqCount s = .next (State.afterDone { s with freq := freq }
          { s.res with r0 := Word.ofNat ((List.range 512).countP (fun x => syms.contains x)) }) ∧
        (∀ x, x < 512 → (({ s with freq := freq } : State).freqAt x).toNat = syms.count x) ∧
        (∀ x, 512 ≤ x → ({ s with freq := freq } : State).freqAt x = s.freqAt x)) ∧
    (∀ before x after, syms = before ++ x :: after → counts before →
      (inAlphabet x = false → exec .freqCount s = .next (s.afterRaise .unsupportedSymbol before.length x)) ∧
      (inAlphabet x = true → before.count x = 2 ^ 32 - 1 →
        exec .freqCount s = .next (s.afterRaise .capacityExceeded before.length x)))

/-- R241 to R243: HUFF_BUILD with k used symbols, all in the alphabet, builds a full tree over exactly those symbols, 2k - 1
nodes, root 2k - 2. NODE[0..k) holds their leaves, ascending. Merge m takes, of the nodes not yet merged, the two first in the
order of (weight, key), the first to the left, and writes NODE[k + m]; a leaf's weight and key are its count and symbol, a merged
node's the sum and the lesser key. The least nonzero symbol outside the alphabet is UnsupportedSymbol(0, s) and an all-zero table is
BadArgument(0, 0), with TREE_VALID = 0. -/
def Obligations.HuffBuildBuildsTree : Prop :=
  ∀ s : State, s.params.legal →
    let used := (List.range 512).filter (fun x => inAlphabet x && decide (s.freqAt x ≠ 0))
    let bad := (List.range 512).filter (fun x => !inAlphabet x && decide (s.freqAt x ≠ 0))
    let k := used.length
    (bad = [] → used ≠ [] →
      ∃ t tree, exec .huffBuild s = .next t ∧ t.tree? = some tree ∧ (tree.paths.map Prod.fst).Perm used ∧
        tree.size = 2 * k - 1 ∧
        t = State.afterDone { s with node := t.node, tree := {
            root := Word.ofNat (2 * k - 2), nodes := Word.ofNat (2 * k - 1), valid := true } }
          { r0 := Word.ofNat (2 * k - 2), r1 := Word.ofNat (2 * k - 1), r2 := Word.ofNat k, r3 := s.res.r3 } ∧
        ∃ weight key left right : Nat → Nat,
          (∀ j x, used[j]? = some x →
            t.nodeAt j = BitVec.ofNat 64 (x + 2 ^ 63) ∧ weight j = (s.freqAt x).toNat ∧ key j = x) ∧
          ∀ m, m + 1 < k →
            let queued := fun x => x < k + m ∧ ∀ m', m' < m → x ≠ left m' ∧ x ≠ right m'
            let precedes := fun x y => weight x < weight y ∨ (weight x = weight y ∧ key x < key y)
            let a := left m; let c := right m
            queued a ∧ queued c ∧ a ≠ c ∧ (∀ x, queued x → x ≠ a → precedes a x) ∧
            (∀ x, queued x → x ≠ a → x ≠ c → precedes c x) ∧
            t.nodeAt (k + m) = BitVec.ofNat 64 (min (key a) (key c) + a * 2 ^ 16 + c * 2 ^ 32) ∧
            weight (k + m) = weight a + weight c ∧ key (k + m) = min (key a) (key c)) ∧
    (∀ x rest, bad = x :: rest → exec .huffBuild s =
      .next (State.afterRaise { s with tree := { s.tree with valid := false } } .unsupportedSymbol 0 x)) ∧
    (bad = [] → used = [] → exec .huffBuild s =
      .next (State.afterRaise { s with tree := { s.tree with valid := false } } .badArgument 0 0))

/-- R244, R105: HUFF_CODES gives each symbol of the tree the edge string of its first leaf in pre-order, as the CODE entry with
VALID, LEN and BITS, and every other symbol the invalid entry 0; a leaf deeper than 56 is CodeTooLong(depth, symbol) with CODE
unchanged; no tree is NoTree(0, 0). The tree is the one NODE holds below TREE_ROOT, by R106's fields. -/
def Obligations.HuffCodesCompletes : Prop :=
  ∀ s : State,
    (s.tree? = s.treeAt s.params.nodeCap s.tree.root.toNat ∧ ∀ depth i, let w := (s.nodeAt i).toNat
      s.treeAt 0 i = none ∧
      (2 ^ 63 ≤ w → s.treeAt (depth + 1) i = some (.leaf (w % 2 ^ 9))) ∧
      (w < 2 ^ 63 → ∀ t, s.treeAt (depth + 1) i = some t ↔ ∃ l r, t = .node l r ∧
        s.treeAt depth (w / 2 ^ 16 % 2 ^ 10) = some l ∧ s.treeAt depth (w / 2 ^ 32 % 2 ^ 10) = some r)) ∧
    (∀ tree, s.tree.valid = true → s.tree? = some tree → (∀ x ∈ tree.paths, x.2.length ≤ 56) →
      ∃ code, exec .huffCodes s = .next (State.afterDone { s with code := code }
          { s.res with
            r0 := Word.ofNat ((List.range 512).countP (fun y => tree.paths.any (fun x => x.1 == y))),
            r1 := Word.ofNat ((tree.paths.map (fun x => x.2.length)).foldl max 0) }) ∧
        (∀ before y h after, tree.paths = before ++ (y, h) :: after → (∀ x ∈ before, x.1 ≠ y) →
          ({ s with code := code } : State).codeAt y = BitVec.ofNat 64 (valBits h + h.length * 2 ^ 56 + 2 ^ 63)) ∧
        (∀ y, y < 512 → (∀ x ∈ tree.paths, x.1 ≠ y) → ({ s with code := code } : State).codeAt y = 0) ∧
        (∀ y, 512 ≤ y → ({ s with code := code } : State).codeAt y = s.codeAt y)) ∧
    (∀ tree before y h after, s.tree.valid = true → s.tree? = some tree → tree.paths = before ++ (y, h) :: after →
      (∀ x ∈ before, x.2.length ≤ 56) → 56 < h.length →
      exec .huffCodes s = .next (s.afterRaise .codeTooLong h.length y)) ∧
    (s.tree.valid = false → exec .huffCodes s = .next (s.afterRaise .noTree 0 0))

/-- R245: the edge strings of a tree are prefix-free and meet Kraft's equality Σ 2^(-length) = 1; one leaf has the empty
string. An edge to the left is 0 and one to the right 1 (R244); val(s) and bits_n(v) are R8's. -/
def Obligations.CodesArePrefixFree : Prop :=
  (∀ sym, (CodeTree.leaf sym).paths = [(sym, [])]) ∧
  (∀ l r : CodeTree, (CodeTree.node l r).paths =
    l.paths.map (fun x => (x.1, false :: x.2)) ++ r.paths.map (fun x => (x.1, true :: x.2))) ∧
  valBits [] = 0 ∧ (∀ b bs, valBits (b :: bs) = (if b then 2 ^ bs.length else 0) + valBits bs) ∧
  (∀ n v, (bitsOf n v).length = n ∧ valBits (bitsOf n v) = v % 2 ^ n) ∧
  ∀ tree : CodeTree, let depth := (tree.paths.map (fun x => x.2.length)).foldl max 0
    tree.paths.Pairwise (fun x y => ¬x.2 <+: y.2 ∧ ¬y.2 <+: x.2) ∧
    (tree.paths.map (fun x => 2 ^ (depth - x.2.length))).sum = 2 ^ depth ∧
    (tree.leaves = 1 → tree.paths.map Prod.snd = [[]])

/-- R114, R246: HUFF_SERIALIZE appends the tree's serialized bits when DST has room; otherwise the first writeBits without room
raises CapacityExceeded(BW_POS, n) and every earlier one is kept; no tree is NoTree(0, 0). The writeBits are, for a leaf, 1 in 1
bit and the symbol in 9, and for an internal node, 0 in 1 bit, then the left and the right subtree's. -/
def Obligations.HuffSerializeAppends : Prop :=
  (∀ sym, (CodeTree.leaf sym).serialWrites = [(1, 1), (sym, 9)]) ∧
  (∀ l r : CodeTree, (CodeTree.node l r).serialWrites = (0, 1) :: l.serialWrites ++ r.serialWrites) ∧
  ∀ s : State, s.params.legal → s.writerInv →
    let fits := fun bits => s.bw.pos.toNat + (s.bw.cnt.toNat + bits) / 8 ≤ s.params.dstSize
    (∀ tree, s.tree.valid = true → s.tree? = some tree →
      (fits (11 * tree.leaves - 1) →
        ∃ t, exec .huffSerialize s = .next t ∧
          (∀ o, o ≤ s.bw.pos.toNat → t.writerBits o = s.writerBits o ++ tree.serialBits) ∧
          t.bw.total = s.bw.total + Word.ofNat (11 * tree.leaves - 1) ∧
          t = State.afterDone { s with dst := t.dst, bw := t.bw }
            { s.res with r0 := Word.ofNat (11 * tree.leaves - 1) }) ∧
      (¬fits (11 * tree.leaves - 1) →
        ∃ t before v n after, tree.serialWrites = before ++ (v, n) :: after ∧
          fits (totalBits before) ∧ ¬fits (totalBits before + n) ∧ exec .huffSerialize s = .next t ∧
          (∀ o, o ≤ s.bw.pos.toNat → t.writerBits o = s.writerBits o ++ bitsOfWrites before) ∧
          t.bw.total = s.bw.total + Word.ofNat (totalBits before) ∧
          t = State.afterRaise { s with dst := t.dst, bw := t.bw } .capacityExceeded t.bw.pos.toNat n)) ∧
    (s.tree.valid = false → exec .huffSerialize s = .next (s.afterRaise .noTree 0 0))

/-- R247: a tree of k leaves serializes to 11k - 1 bits, and a full tree of k leaves has 2k - 1 nodes. The bits are R114's. -/
def Obligations.SerializedSize : Prop :=
  (∀ sym, (CodeTree.leaf sym).serialBits = true :: bitsOf 9 sym) ∧
  (∀ l r : CodeTree, (CodeTree.node l r).serialBits = false :: (l.serialBits ++ r.serialBits)) ∧
  ∀ tree : CodeTree, totalBits tree.serialWrites = 11 * tree.leaves - 1 ∧
    tree.serialBits.length = 11 * tree.leaves - 1 ∧ bitsOfWrites tree.serialWrites = tree.serialBits ∧
    tree.size = 2 * tree.leaves - 1

/-- R115, R248: HUFF_ENCODE appends each token's code and extra bits when every token has a valid code and DST has room. The first
token without one raises UnsupportedSymbol(i, s); the first code or extra bits without room raise CapacityExceeded(BW_POS, n). In
each case the bits before are written, and BW_TOTAL grows by their number. VALID, LEN and BITS are R105's fields. (A drawn CODE entry may have LEN 57 to 63, which R162
does not speak of; the clauses then rest on log 12.) -/
def Obligations.HuffEncodeAppends : Prop :=
  ∀ s : State, s.params.legal → s.writerInv →
    let entry := fun (x : Token) => let w := s.codeAt x.sym
      ({ valid := w.getLsbD 63, len := w.toNat / 2 ^ 56 % 2 ^ 6, bits := w.toNat % 2 ^ 56 } : CodeEntry)
    let item := fun (x : Token) => bitsOf (entry x).len (entry x).bits ++ bitsOf x.xbits x.xval
    let fits := fun bits => s.bw.pos.toNat + (s.bw.cnt.toNat + bits) / 8 ≤ s.params.dstSize
    let wrote := fun (t : State) (bits : List Bool) =>
      (∀ o, o ≤ s.bw.pos.toNat → t.writerBits o = s.writerBits o ++ bits) ∧
        t.bw.total = s.bw.total + Word.ofNat bits.length
    ((∀ x ∈ s.tokens, (entry x).valid = true) → fits (s.tokens.flatMap item).length →
      ∃ t, exec .huffEncode s = .next t ∧ wrote t (s.tokens.flatMap item) ∧
        t = State.afterDone { s with dst := t.dst, bw := t.bw }
          { s.res with r0 := Word.ofNat (s.tokens.flatMap item).length }) ∧
    (∀ before x after, s.tokens = before ++ x :: after → (∀ y ∈ before, (entry y).valid = true) →
      let bits := before.flatMap item
      let code := bits ++ bitsOf (entry x).len (entry x).bits
      (fits bits.length → (entry x).valid = false →
        ∃ t, exec .huffEncode s = .next t ∧ wrote t bits ∧
          t = State.afterRaise { s with dst := t.dst, bw := t.bw } .unsupportedSymbol before.length x.sym) ∧
      (fits bits.length → (entry x).valid = true → ¬fits code.length →
        ∃ t, exec .huffEncode s = .next t ∧ wrote t bits ∧
          t = State.afterRaise { s with dst := t.dst, bw := t.bw } .capacityExceeded t.bw.pos.toNat (entry x).len) ∧
      (fits code.length → (entry x).valid = true → ¬fits (code.length + x.xbits) →
        ∃ t, exec .huffEncode s = .next t ∧ wrote t code ∧
          t = State.afterRaise { s with dst := t.dst, bw := t.bw } .capacityExceeded t.bw.pos.toNat x.xbits))

/-! ## Huffman decoder -/

/-- R271, R272: when the reader's bits begin with the serialized form of a tree of at most NODE_CAP nodes, HUFF_DESERIALIZE
rebuilds that tree, its nodes in pre-order from index 0, and consumes exactly its bits. On any other bits it raises
MalformedTree(BR_POS, cnt) with TREE_VALID = 0, where cnt counts the nodes allocated when the bits end or NODE is full, the reader
stands before the failing read, and the leaves read so far stay written. -/
def Obligations.HuffDeserializeRebuilds : Prop :=
  ∀ s : State, s.params.legal → s.readerInv →
    (∀ tree rest, s.readerBits = tree.serialBits ++ rest → tree.size ≤ s.params.nodeCap → tree.symbolsFit = true →
      ∃ t, exec .huffDeserialize s = .next t ∧ t.tree? = some tree ∧ t.readerBits = rest ∧
        t.br.stop = s.br.stop ∧ (∀ j w, (tree.arena 0)[j]? = some w → t.nodeAt j = w) ∧
        t = State.afterDone { s with
            br := t.br, node := t.node, tree := { root := 0, nodes := Word.ofNat tree.size, valid := true } }
          { s.res with r0 := 0, r1 := Word.ofNat tree.size }) ∧
    ((∀ (tree : CodeTree) (rest : List Bool), s.readerBits = tree.serialBits ++ rest → tree.symbolsFit = true →
        s.params.nodeCap < tree.size) →
      ∃ t items cnt left, TreeBreaksOff s.params.nodeCap s.readerBits items cnt left ∧ exec .huffDeserialize s = .next t ∧
        t.readerBits = left ∧ t.br.stop = s.br.stop ∧
        (∀ j sym, items[j]? = some (some sym) → t.nodeAt j = BitVec.ofNat 64 (sym + 2 ^ 63)) ∧
        t = State.afterRaise { s with br := t.br, node := t.node, tree := { s.tree with valid := false } }
          .malformedTree t.br.pos.toNat cnt)

/-- R273, R274: HUFF_DECODE_SYM on the code of a leaf returns its symbol and length and leaves the rest; on bits that end inside
a descent it raises MalformedTree with the bits of the descent consumed; no tree is NoTree(0, 0). -/
def Obligations.HuffDecodeSymFollowsCode : Prop :=
  ∀ s : State, s.params.legal → s.readerInv →
    (∀ tree sym h rest, s.tree.valid = true → s.tree? = some tree → (sym, h) ∈ tree.paths → s.readerBits = h ++ rest →
      ∃ t, exec .huffDecodeSym s = .next t ∧ t.readerBits = rest ∧ t.br.stop = s.br.stop ∧
        t = State.afterDone { s with br := t.br }
          { s.res with r0 := Word.ofNat sym, r1 := Word.ofNat h.length }) ∧
    (∀ tree, s.tree.valid = true → s.tree? = some tree → (∀ x ∈ tree.paths, ¬x.2 <+: s.readerBits) →
      ∃ t : State, exec .huffDecodeSym s = .next (State.afterRaise { s with br := t.br } .malformedTree
          t.br.pos.toNat s.readerBits.length) ∧ t.readerBits = [] ∧ t.br.stop = s.br.stop ∧
        t.src = s.src) ∧
    (s.tree.valid = false → exec .huffDecodeSym s = .next (s.afterRaise .noTree 0 0))

/-! ## Container -/

/-- R290, R293: COMPRESS with legal operands and configuration completes exactly when the container fits in DST: 9 bytes and
(11q - 1) + P bits, for q leaves and P payload bits by the CODE table it has made. Otherwise the first writeBits without room
raises CapacityExceeded(BW_POS, its bit count), or the flush CapacityExceeded(BW_POS, 0), and the bits before are written. Either
way TOK, TOK_COUNT, FREQ, NODE, TREE, CODE and the header are as the completed steps leave them. 450 + 9(n + 1) bytes of DST are
always enough. Illegal operands are BadArgument in the order of R290, a bad configuration, in the order
of R211, after them. -/
def Obligations.CompressCompletes : Prop :=
  ∀ s : State, s.params.legal →
    let n := s.latchArg.r0.toNat; let dt := s.latchArg.r1.toNat; let aux := s.latchArg.r2.toNat
    let window := s.cfg.window.toNat; let minMatch := s.cfg.minMatch.toNat; let maxMatch := s.cfg.maxMatch.toNat
    let maxChain := s.cfg.maxChain.toNat; let lazyDiv := s.cfg.lazyDiv.toNat
    let badConfig : Option (Nat × Nat) :=
      if ¬(1 ≤ window ∧ window ≤ 65536) then some (0x80, window)
      else if ¬(3 ≤ maxMatch ∧ maxMatch ≤ 258) then some (0x90, maxMatch)
      else if ¬(3 ≤ minMatch ∧ minMatch ≤ maxMatch) then some (0x88, minMatch)
      else if ¬(1 ≤ maxChain ∧ maxChain ≤ 65536) then some (0x98, maxChain)
      else if ¬(1 ≤ lazyDiv ∧ lazyDiv ≤ 65536) then some (0xA0, lazyDiv)
      else none
    let toks := lzTokens s.lzConfig s.input n
    (n ≤ s.params.srcSize → dt ≤ 1 → aux < 2 ^ 32 → (dt = 0 → aux = 0) → badConfig = none →
      ∃ t tree, exec .compress s = .next t ∧ t.phase = .idle ∧
        (let syms := toks.map Token.sym
         let q := syms.eraseDups.length
         let len := fun (x : Token) => (t.codeAt x.sym).toNat / 2 ^ 56 % 2 ^ 6
         let size := 9 + ((11 * q - 1) + (toks.map (fun x => len x + x.xbits)).sum + 7) / 8
         let writes := tree.serialWrites ++
           toks.flatMap (fun x => [((t.codeAt x.sym).toNat % 2 ^ 56, len x), (x.xval, x.xbits)])
         let fits := fun bits => 9 + bits / 8 ≤ s.params.dstSize
         t.tokCount.toNat = toks.length ∧ (∀ j x, toks[j]? = some x → t.tokAt j = x.toWord) ∧
         (∀ x, x < 512 → (t.freqAt x).toNat = syms.count x) ∧
         t.tree = { root := Word.ofNat (2 * q - 2), nodes := Word.ofNat (2 * q - 1), valid := true } ∧
         t.tree? = some tree ∧ (tree.paths.map Prod.fst).Perm syms.eraseDups ∧
         (∀ x ∈ tree.paths, t.codeAt x.1 = BitVec.ofNat 64 (valBits x.2 + x.2.length * 2 ^ 56 + 2 ^ 63)) ∧
         t.dstAt 0 = BitVec.ofNat 8 dt ∧
         (∀ j, j < 4 → t.dstAt (1 + j) = BitVec.ofNat 8 (aux / 2 ^ (8 * j)) ∧
           t.dstAt (5 + j) = BitVec.ofNat 8 (n / 2 ^ (8 * j))) ∧
         (size ≤ s.params.dstSize → t.status.done = true ∧ t.res.r0 = Word.ofNat size) ∧
         (s.params.dstSize < size →
           t.status.done = false ∧ t.status.code = some .capacityExceeded ∧ t.errPos = t.bw.pos ∧
           ∃ before after, writes = before ++ after ∧ fits (totalBits before) ∧
             t.writerBits 9 = bitsOfWrites before ∧ t.bw.total = Word.ofNat (totalBits before) ∧
             ((after = [] ∧ t.errSym = 0) ∨
               ∃ v k rest, after = (v, k) :: rest ∧ ¬fits (totalBits before + k) ∧ t.errSym = Word.ofNat k)) ∧
         size ≤ 450 + 9 * (n + 1))) ∧
    (s.params.srcSize < n → exec .compress s = .next (s.afterRaise .badArgument 0 n)) ∧
    (n ≤ s.params.srcSize → 1 < dt → exec .compress s = .next (s.afterRaise .badArgument 1 dt)) ∧
    (n ≤ s.params.srcSize → dt ≤ 1 → 2 ^ 32 ≤ aux ∨ (dt = 0 ∧ aux ≠ 0) →
      exec .compress s = .next (s.afterRaise .badArgument 2 aux)) ∧
    (n ≤ s.params.srcSize → dt ≤ 1 → aux < 2 ^ 32 → (dt = 0 → aux = 0) → ∀ off v, badConfig = some (off, v) →
      exec .compress s = .next (s.afterRaise .badArgument off v))

/-- R291, R293: a COMPRESS that completes with q leaves and payload P bits leaves the nine header bytes, (11q - 1) + P bits
and 9 + ceil(bits / 8) bytes, and its results. From byte 9 the container holds the serialized tree, each token's code and extra
bits, and zero padding (R113, R116, R290). TOK holds the matcher's tokens, FREQ their counts, NODE a tree over exactly their
symbols with its TREE registers, and CODE its codes. -/
def Obligations.ContainerSizeLaw : Prop :=
  ∀ s t : State, s.params.legal → exec .compress s = .next t → t.status.done = true →
    let n := s.latchArg.r0.toNat
    let toks := lzTokens s.lzConfig s.input n
    let syms := toks.map Token.sym
    let q := syms.eraseDups.length
    let len := fun (x : Token) => (t.codeAt x.sym).toNat / 2 ^ 56 % 2 ^ 6
    let item := fun (x : Token) => bitsOf (len x) ((t.codeAt x.sym).toNat % 2 ^ 56) ++ bitsOf x.xbits x.xval
    let bits := (11 * q - 1) + (toks.map (fun x => len x + x.xbits)).sum
    t.res = { r0 := Word.ofNat (9 + (bits + 7) / 8), r1 := Word.ofNat toks.length,
              r2 := Word.ofNat bits, r3 := Word.ofNat q } ∧
    t.bw.pos = t.res.r0 ∧ t.bw.total = t.res.r2 ∧ t.bw.cnt = 0 ∧ t.bw.acc = 0 ∧
    t.tokCount.toNat = toks.length ∧ (∀ j x, toks[j]? = some x → t.tokAt j = x.toWord) ∧
    (∀ x, x < 512 → (t.freqAt x).toNat = syms.count x) ∧
    t.tree = { root := Word.ofNat (2 * q - 2), nodes := Word.ofNat (2 * q - 1), valid := true } ∧
    (∃ tree, t.tree? = some tree ∧ (tree.paths.map Prod.fst).Perm syms.eraseDups ∧
      (∀ x ∈ tree.paths, t.codeAt x.1 = BitVec.ofNat 64 (valBits x.2 + x.2.length * 2 ^ 56 + 2 ^ 63)) ∧
      t.dstBits 9 t.bw.pos.toNat =
        tree.serialBits ++ toks.flatMap item ++ List.replicate (8 * ((bits + 7) / 8) - bits) false) ∧
    t.dstAt 0 = BitVec.ofNat 8 s.latchArg.r1.toNat ∧
    (∀ j, j < 4 → t.dstAt (1 + j) = BitVec.ofNat 8 (s.latchArg.r2.toNat / 2 ^ (8 * j)) ∧
      t.dstAt (5 + j) = BitVec.ofNat 8 (n / 2 ^ (8 * j)))

/-- R294: DECOMPRESS m reads the header and the tree and enters the decode loop with OUT_LEN = 0; a container longer than SRC,
shorter than its header, or too long for DST raises BadArgument(0, m), EndOfStream(0, m) or CapacityExceeded(0, L). A stream
that holds no tree raises MalformedTree(0, cnt), where cnt counts the nodes allocated when the bits end or NODE is full, and the
reader stands before the failing read. (The state in which the loop is entered, with phase decoding and
DECOMPRESS's variables, is the model's split of the command into steps: log 4.) -/
def Obligations.DecompressStarts : Prop :=
  ∀ s : State, s.params.legal → let m := s.latchArg.r0.toNat
    let le32 := fun i => (s.srcAt i).toNat + (s.srcAt (i + 1)).toNat * 2 ^ 8 + (s.srcAt (i + 2)).toNat * 2 ^ 16
      + (s.srcAt (i + 3)).toNat * 2 ^ 24
    (s.params.srcSize < m → exec .decompress s = .next (State.afterRaise { s with outLen := 0 } .badArgument 0 m)) ∧
    (m ≤ s.params.srcSize → m < 9 →
      exec .decompress s = .next (State.afterRaise { s with outLen := 0 } .endOfStream 0 m)) ∧
    (m ≤ s.params.srcSize → 9 ≤ m → s.params.dstSize < le32 5 →
      exec .decompress s = .next (State.afterRaise { s with outLen := 0 } .capacityExceeded 0 (le32 5))) ∧
    (m ≤ s.params.srcSize → 9 ≤ m → le32 5 ≤ s.params.dstSize → ∀ tree rest,
      s.srcBits 9 m = tree.serialBits ++ rest → tree.size ≤ s.params.nodeCap → tree.symbolsFit = true →
      ∃ t, exec .decompress s = .next t ∧ t.tree? = some tree ∧ t.readerBits = rest ∧ t.br.stop = Word.ofNat m ∧
        t = { s with
          outLen := 0, br := t.br, node := t.node
          tree := { root := 0, nodes := Word.ofNat tree.size, valid := true }
          phase := .decoding
          dec := { len := le32 5, dataType := (s.srcAt 0).toNat, auxWidth := le32 1, pendingLen := none } }) ∧
    (m ≤ s.params.srcSize → 9 ≤ m → le32 5 ≤ s.params.dstSize →
      (∀ (tree : CodeTree) (rest : List Bool), s.srcBits 9 m = tree.serialBits ++ rest → tree.symbolsFit = true →
        s.params.nodeCap < tree.size) →
      ∃ t items cnt left, TreeBreaksOff s.params.nodeCap (s.srcBits 9 m) items cnt left ∧ exec .decompress s = .next t ∧
        t.readerBits = left ∧ t.br.stop = Word.ofNat m ∧
        t = State.afterRaise { s with
          outLen := 0, br := t.br, node := t.node, tree := { s.tree with valid := false } } .malformedTree 0 cnt)

/-- R296: LIT appends its byte to the output, or raises LengthMismatch(OUT_LEN, s) when the output is complete. -/
def Obligations.LiteralAppends : Prop :=
  ∀ (s : State) (v : Byte), s.dec.pendingLen = none →
    (s.outLen.toNat ≠ s.dec.len →
      ∃ dst, exec (.lit v) s = .next { s with dst := dst, outLen := s.outLen + 1 } ∧
        ∀ j, ({ s with dst := dst } : State).dstAt j = if j = s.outLen.toNat then v else s.dstAt j) ∧
    (s.outLen.toNat = s.dec.len →
      exec (.lit v) s = .next (s.afterRaise .lengthMismatch s.outLen.toNat v.toNat))

/-- R294, R297: EOS at OUT_LEN = L completes DECOMPRESS with its four results; elsewhere it raises
LengthMismatch(OUT_LEN, 256). -/
def Obligations.EosCompletes : Prop :=
  ∀ s : State, s.dec.pendingLen = none →
    (s.outLen.toNat = s.dec.len → exec .eos s = .next (s.afterDone
      { r0 := Word.ofNat s.dec.len, r1 := Word.ofNat s.dec.dataType, r2 := Word.ofNat s.dec.auxWidth,
        r3 := s.br.pos })) ∧
    (s.outLen.toNat ≠ s.dec.len → exec .eos s = .next (s.afterRaise .lengthMismatch s.outLen.toNat 256))

/-- R298, for each of LEN_257 to LEN_285: a length symbol reads its extra bits, and its length waits for the distance symbol;
missing extra bits raise EndOfStream(OUT_LEN, s). -/
def Obligations.LengthSymbolsRead : Prop :=
  ∀ (s : State) (sym lb le : Nat) (i : Instr), s.params.legal → s.readerInv → s.dec.pendingLen = none →
    (sym, i) ∈ lengthSymbolTable → codeToLengthBase sym = some (lb, le) →
    (le ≤ s.readerBits.length →
      ∃ t, exec i s = .next t ∧ t.readerBits = s.readerBits.drop le ∧ t.br.stop = s.br.stop ∧
        t = { s with br := t.br, dec := { s.dec with pendingLen := some (lb + valBits (s.readerBits.take le)) } }) ∧
    (s.readerBits.length < le → exec i s = .next (s.afterRaise .endOfStream s.outLen.toNat sym))

/-- R298, for each of DIST_300 to DIST_331: after a length, a distance symbol reads its extra bits and copies the length byte by
byte from the distance back; a distance beyond the output raises InvalidBackReference(OUT_LEN, dist), a copy past L raises
LengthMismatch(OUT_LEN, len), both with the extra bits read; missing extra bits raise EndOfStream(OUT_LEN, s). -/
def Obligations.DistanceSymbolsCopy : Prop :=
  ∀ (s : State) (sym db de len : Nat) (i : Instr), s.params.legal → s.readerInv → s.dec.pendingLen = some len →
    s.dec.len ≤ s.params.dstSize →
    (sym, i) ∈ distanceSymbolTable → codeToDistanceBase sym = some (db, de) →
    let out := s.outLen.toNat; let dist := db + valBits (s.readerBits.take de)
    (de ≤ s.readerBits.length → dist ≤ out → out + len ≤ s.dec.len →
      ∃ t, exec i s = .next t ∧ t.readerBits = s.readerBits.drop de ∧ t.br.stop = s.br.stop ∧
        t = { s with br := t.br, dst := t.dst, outLen := Word.ofNat (out + len),
                     dec := { s.dec with pendingLen := none } } ∧
        (∀ j, j < len → t.dstAt (out + j) = s.dstAt (out - dist + j % dist)) ∧
        (∀ j, j < out ∨ out + len ≤ j → t.dstAt j = s.dstAt j)) ∧
    (de ≤ s.readerBits.length → out < dist →
      ∃ t, exec i s = .next t ∧ t.readerBits = s.readerBits.drop de ∧ t.br.stop = s.br.stop ∧
        t = State.afterRaise { s with br := t.br } .invalidBackReference out dist) ∧
    (de ≤ s.readerBits.length → dist ≤ out → s.dec.len < out + len →
      ∃ t, exec i s = .next t ∧ t.readerBits = s.readerBits.drop de ∧ t.br.stop = s.br.stop ∧
        t = State.afterRaise { s with br := t.br } .lengthMismatch out len) ∧
    (s.readerBits.length < de → exec i s = .next (s.afterRaise .endOfStream out sym))

/-- R298, R299: a distance symbol where none is due, and any other symbol where a distance is due, raise
SynchronizationError(OUT_LEN, s); an unassigned symbol elsewhere raises UnsupportedSymbol(OUT_LEN, s). (A distance is due when a
length waits in dec.pendingLen: the model's split of R298, log 7.) -/
def Obligations.SymbolsOutOfPlaceRaise : Prop :=
  ∀ (s : State) (sym : Nat), sym < 512 →
    (s.dec.pendingLen = none → 300 ≤ sym → sym ≤ 331 →
      runSymbol sym s = .next (s.afterRaise .synchronizationError s.outLen.toNat sym)) ∧
    (s.dec.pendingLen ≠ none → sym < 300 ∨ 331 < sym →
      runSymbol sym s = .next (s.afterRaise .synchronizationError s.outLen.toNat sym)) ∧
    (s.dec.pendingLen = none → (286 ≤ sym ∧ sym ≤ 299) ∨ 332 ≤ sym →
      runSymbol sym s = .next (s.afterRaise .unsupportedSymbol s.outLen.toNat sym))

/-- R292: a completed COMPRESS, its container copied to SRC of any instance whose DST has room, decompresses without error to
the original bytes, with RES = (n, dataType, auxWidth, m). -/
def Obligations.ContainerRoundTrip : Prop :=
  ∀ (s t u : State), s.params.legal → u.params.legal →
    exec .compress s = .next t → t.status.done = true →
    u.phase = .latched → u.latchCmd = 0x31 → u.pending = [] → u.latchArg.r0 = t.res.r0 →
    t.res.r0.toNat ≤ u.params.srcSize → s.latchArg.r0.toNat ≤ u.params.dstSize →
    (∀ j, j < t.res.r0.toNat → u.srcAt j = t.dstAt j) →
    ∃ k v, Sys2Proof.core.run k u = .next v ∧ v.phase = .idle ∧ v.status.done = true ∧
      (∀ j, j < s.latchArg.r0.toNat → v.dstAt j = s.srcAt j) ∧
      v.res = { r0 := s.latchArg.r0, r1 := s.latchArg.r1, r2 := s.latchArg.r2, r3 := t.res.r0 }

/-! ## Whole-machine rules -/

/-- Every step keeps the invariant of registers and memories (R24, R30, R31, R34, R36, R40), and no illegal word is ever
latched (R144). -/
def Obligations.StepKeepsInvariant : Prop :=
  ∀ s t : State, s.Inv → step s = .next t → t.Inv

/-- R35: every step keeps TREE_VALID honest. -/
def Obligations.StepKeepsTreeInvariant : Prop :=
  ∀ s t : State, s.Inv → s.TreeInv → step s = .next t → t.TreeInv

/-- The power-on state of every legal instance, and the reset state, meet both invariants. -/
def Obligations.PowerOnMeetsInvariants : Prop :=
  (∀ p : Config.Params, p.legal → (State.powerOn p).Inv ∧ (State.powerOn p).TreeInv) ∧
    State.reset.Inv ∧ State.reset.TreeInv

/-- R146, R301: a command that is running ends: with no turn pending (log 6) the block is IDLE after at most DST_SIZE + 4 steps,
with no fault and no refusal on the way. The bound counts the model's own steps: DECOMPRESS takes one for each symbol (log 4), and
a back-reference is two of them (log 7). -/
def Obligations.EveryCommandEnds : Prop :=
  ∀ s : State, s.Inv → s.TreeInv → s.busy = true → s.pending = [] →
    ∃ k t, k ≤ s.params.dstSize + 4 ∧ Sys2Proof.core.run k s = .next t ∧ t.busy = false

/-- R28, R32, R41, R80, R356: no instruction changes CMD, ARG, CFG, SRC, WDROP, the latches, the instance or the model's own
fields. -/
def Obligations.ExecKeepsHostState : Prop :=
  ∀ (i : Instr) (s t : State), exec i s = .next t →
    t.cmd = s.cmd ∧ t.arg = s.arg ∧ t.cfg = s.cfg ∧ t.src = s.src ∧ t.status.wdrop = s.status.wdrop ∧
    t.latchCmd = s.latchCmd ∧ t.latchArg = s.latchArg ∧ t.params = s.params ∧ t.pending = s.pending ∧
    t.portData = s.portData ∧ t.draws = s.draws ∧ t.ramEpoch = s.ramEpoch

/-- R40, R51: which instructions may change each unit: the writer, the reader, TOK and TOK_COUNT, FREQ, CODE, the tree and NODE,
OUT_LEN, DST. Every other instruction leaves it unchanged. That LZ_MATCH is not among those that change FREQ, CODE and NODE is the
model's reading of R213 against R355 (log 25). -/
def Obligations.ExecKeepsOtherUnits : Prop :=
  ∀ (i : Instr) (s t : State), exec i s = .next t →
    let isLen := ∃ k, (k, i) ∈ lengthSymbolTable
    let isDist := ∃ k, (k, i) ∈ distanceSymbolTable
    let isLit := ∃ v, i = .lit v
    (i ∉ [.bwInit, .bwBits, .bwFlush, .huffSerialize, .huffEncode, .compress] → t.bw = s.bw) ∧
    (i ∉ [.brInit, .brBits, .huffDeserialize, .huffDecodeSym, .decompress] → ¬isLen → ¬isDist → t.br = s.br) ∧
    (i ∉ [.lzMatch, .compress] → t.tokCount = s.tokCount ∧ ∀ j, t.tokAt j = s.tokAt j) ∧
    (i ∉ [.freqCount, .compress] → ∀ j, t.freqAt j = s.freqAt j) ∧
    (i ∉ [.huffCodes, .compress] → ∀ j, t.codeAt j = s.codeAt j) ∧
    (i ∉ [.huffBuild, .huffDeserialize, .compress, .decompress] → t.tree = s.tree ∧ ∀ j, t.nodeAt j = s.nodeAt j) ∧
    (i ≠ .decompress → ¬isLit → ¬isDist → t.outLen = s.outLen) ∧
    (i ∉ [.bwBits, .bwFlush, .huffSerialize, .huffEncode, .compress] → ¬isLit → ¬isDist →
      ∀ j, t.dstAt j = s.dstAt j)

/-- The DST bytes each storing instruction may change: BW_BITS its whole bytes from BW_POS (R162), BW_FLUSH the byte at BW_POS
(R164), HUFF_SERIALIZE and HUFF_ENCODE the bytes from the old BW_POS to the new one (R246, R248), COMPRESS the header and the
bytes from 9 to the new BW_POS (R290), LIT the byte at OUT_LEN (R296), a distance symbol the bytes from OUT_LEN for its
length (R298). Every other byte reads as before. -/
def Obligations.DstStoresStayInPlace : Prop :=
  ∀ s t : State, s.params.legal →
    (exec .bwBits s = .next t → ∀ j, j < s.bw.pos.toNat ∨
      s.bw.pos.toNat + (s.bw.cnt.toNat + s.latchArg.r1.toNat) / 8 ≤ j → t.dstAt j = s.dstAt j) ∧
    (exec .bwFlush s = .next t → ∀ j, j ≠ s.bw.pos.toNat → t.dstAt j = s.dstAt j) ∧
    (exec .huffSerialize s = .next t → ∀ j, j < s.bw.pos.toNat ∨ t.bw.pos.toNat ≤ j → t.dstAt j = s.dstAt j) ∧
    (exec .huffEncode s = .next t → ∀ j, j < s.bw.pos.toNat ∨ t.bw.pos.toNat ≤ j → t.dstAt j = s.dstAt j) ∧
    (exec .compress s = .next t → ∀ j, 9 ≤ j → t.bw.pos.toNat ≤ j → t.dstAt j = s.dstAt j) ∧
    (∀ v, exec (.lit v) s = .next t → ∀ j, j ≠ s.outLen.toNat → t.dstAt j = s.dstAt j) ∧
    (∀ k i len, (k, i) ∈ distanceSymbolTable → s.dec.pendingLen = some len → s.dec.len ≤ s.params.dstSize →
      exec i s = .next t → ∀ j, j < s.outLen.toNat ∨ s.outLen.toNat + len ≤ j → t.dstAt j = s.dstAt j)

/-- The TOK, FREQ, CODE and NODE elements each storing instruction may change: LZ_MATCH TOK[0..k) (R213), FREQ_COUNT
FREQ[0..512) (R240), HUFF_CODES CODE[0..512) (R244), HUFF_BUILD NODE[0..TREE_NODES) (R242), HUFF_DESERIALIZE and DECOMPRESS
the nodes they allocate (R271, R294), COMPRESS TOK[0..n], FREQ, CODE and NODE[0..635) (R290, R243). On an error of the first
four nothing of them changes. -/
def Obligations.TableStoresStayInPlace : Prop :=
  ∀ s t : State, s.params.legal →
    (exec .lzMatch s = .next t → ∀ j, t.status.done = false ∨ t.tokCount.toNat ≤ j → t.tokAt j = s.tokAt j) ∧
    (exec .freqCount s = .next t → ∀ j, t.status.done = false ∨ 512 ≤ j → t.freqAt j = s.freqAt j) ∧
    (exec .huffCodes s = .next t → ∀ j, t.status.done = false ∨ 512 ≤ j → t.codeAt j = s.codeAt j) ∧
    (exec .huffBuild s = .next t → ∀ j, t.status.done = false ∨ t.tree.nodes.toNat ≤ j → t.nodeAt j = s.nodeAt j) ∧
    (exec .huffDeserialize s = .next t → ∀ j,
      (if t.status.done then t.tree.nodes.toNat else t.errSym.toNat) ≤ j → t.nodeAt j = s.nodeAt j) ∧
    (exec .decompress s = .next t → ∀ j,
      (if t.phase = .decoding then t.tree.nodes.toNat
       else if t.status.code = some .malformedTree then t.errSym.toNat else 0) ≤ j → t.nodeAt j = s.nodeAt j) ∧
    (exec .compress s = .next t → ∀ j, (s.latchArg.r0.toNat < j → t.tokAt j = s.tokAt j) ∧
      (512 ≤ j → t.freqAt j = s.freqAt j) ∧ (512 ≤ j → t.codeAt j = s.codeAt j) ∧
      (635 ≤ j → t.nodeAt j = s.nodeAt j))
end

