-- ==== Sys2Proof/Laws/State.lean ====
section
/-! SUPPORT. One lemma per field per update of State, so that no proof unfolds a record update; and the memory reads of each
update that writes no memory. -/

namespace Sys2Proof.Machine

/-! complete -/

@[simp] theorem State.complete_cmd (s : State) (r : Results) : (s.complete r).cmd = s.cmd := rfl
@[simp] theorem State.complete_arg (s : State) (r : Results) : (s.complete r).arg = s.arg := rfl
@[simp] theorem State.complete_res (s : State) (r : Results) : (s.complete r).res = s.res.setResults r := rfl
@[simp] theorem State.complete_status (s : State) (r : Results) : (s.complete r).status = s.status.succeeded := rfl
@[simp] theorem State.complete_errPos (s : State) (r : Results) : (s.complete r).errPos = 0 := rfl
@[simp] theorem State.complete_errSym (s : State) (r : Results) : (s.complete r).errSym = 0 := rfl
@[simp] theorem State.complete_cfg (s : State) (r : Results) : (s.complete r).cfg = s.cfg := rfl
@[simp] theorem State.complete_bw (s : State) (r : Results) : (s.complete r).bw = s.bw := rfl
@[simp] theorem State.complete_br (s : State) (r : Results) : (s.complete r).br = s.br := rfl
@[simp] theorem State.complete_tokCount (s : State) (r : Results) : (s.complete r).tokCount = s.tokCount := rfl
@[simp] theorem State.complete_tree (s : State) (r : Results) : (s.complete r).tree = s.tree := rfl
@[simp] theorem State.complete_outLen (s : State) (r : Results) : (s.complete r).outLen = s.outLen := rfl
@[simp] theorem State.complete_src (s : State) (r : Results) : (s.complete r).src = s.src := rfl
@[simp] theorem State.complete_dst (s : State) (r : Results) : (s.complete r).dst = s.dst := rfl
@[simp] theorem State.complete_tok (s : State) (r : Results) : (s.complete r).tok = s.tok := rfl
@[simp] theorem State.complete_freq (s : State) (r : Results) : (s.complete r).freq = s.freq := rfl
@[simp] theorem State.complete_code (s : State) (r : Results) : (s.complete r).code = s.code := rfl
@[simp] theorem State.complete_node (s : State) (r : Results) : (s.complete r).node = s.node := rfl
@[simp] theorem State.complete_phase (s : State) (r : Results) : (s.complete r).phase = .idle := rfl
@[simp] theorem State.complete_latchCmd (s : State) (r : Results) : (s.complete r).latchCmd = s.latchCmd := rfl
@[simp] theorem State.complete_latchArg (s : State) (r : Results) : (s.complete r).latchArg = s.latchArg := rfl
@[simp] theorem State.complete_dec (s : State) (r : Results) : (s.complete r).dec = DecodeVars.zero := rfl
@[simp] theorem State.complete_params (s : State) (r : Results) : (s.complete r).params = s.params := rfl
@[simp] theorem State.complete_pending (s : State) (r : Results) : (s.complete r).pending = s.pending := rfl
@[simp] theorem State.complete_portData (s : State) (r : Results) : (s.complete r).portData = s.portData := rfl
@[simp] theorem State.complete_draws (s : State) (r : Results) : (s.complete r).draws = s.draws := rfl
@[simp] theorem State.complete_ramEpoch (s : State) (r : Results) : (s.complete r).ramEpoch = s.ramEpoch := rfl
@[simp] theorem State.complete_srcAt (s : State) (r : Results) (i : Nat) : (s.complete r).srcAt i = s.srcAt i := rfl
@[simp] theorem State.complete_dstAt (s : State) (r : Results) (i : Nat) : (s.complete r).dstAt i = s.dstAt i := rfl
@[simp] theorem State.complete_tokAt (s : State) (r : Results) (i : Nat) : (s.complete r).tokAt i = s.tokAt i := rfl
@[simp] theorem State.complete_freqAt (s : State) (r : Results) (i : Nat) : (s.complete r).freqAt i = s.freqAt i := rfl
@[simp] theorem State.complete_codeAt (s : State) (r : Results) (i : Nat) : (s.complete r).codeAt i = s.codeAt i := rfl
@[simp] theorem State.complete_nodeAt (s : State) (r : Results) (i : Nat) : (s.complete r).nodeAt i = s.nodeAt i := rfl

/-! raise -/

@[simp] theorem State.raise_cmd (s : State) (e : EngineError) (pos sym : Nat) : (s.raise e pos sym).cmd = s.cmd := rfl
@[simp] theorem State.raise_arg (s : State) (e : EngineError) (pos sym : Nat) : (s.raise e pos sym).arg = s.arg := rfl
@[simp] theorem State.raise_res (s : State) (e : EngineError) (pos sym : Nat) : (s.raise e pos sym).res = Quad.zero := rfl
@[simp] theorem State.raise_status (s : State) (e : EngineError) (pos sym : Nat) : (s.raise e pos sym).status = s.status.failed e := rfl
@[simp] theorem State.raise_errPos (s : State) (e : EngineError) (pos sym : Nat) : (s.raise e pos sym).errPos = Word.ofNat pos := rfl
@[simp] theorem State.raise_errSym (s : State) (e : EngineError) (pos sym : Nat) : (s.raise e pos sym).errSym = Word.ofNat sym := rfl
@[simp] theorem State.raise_cfg (s : State) (e : EngineError) (pos sym : Nat) : (s.raise e pos sym).cfg = s.cfg := rfl
@[simp] theorem State.raise_bw (s : State) (e : EngineError) (pos sym : Nat) : (s.raise e pos sym).bw = s.bw := rfl
@[simp] theorem State.raise_br (s : State) (e : EngineError) (pos sym : Nat) : (s.raise e pos sym).br = s.br := rfl
@[simp] theorem State.raise_tokCount (s : State) (e : EngineError) (pos sym : Nat) : (s.raise e pos sym).tokCount = s.tokCount := rfl
@[simp] theorem State.raise_tree (s : State) (e : EngineError) (pos sym : Nat) : (s.raise e pos sym).tree = s.tree := rfl
@[simp] theorem State.raise_outLen (s : State) (e : EngineError) (pos sym : Nat) : (s.raise e pos sym).outLen = s.outLen := rfl
@[simp] theorem State.raise_src (s : State) (e : EngineError) (pos sym : Nat) : (s.raise e pos sym).src = s.src := rfl
@[simp] theorem State.raise_dst (s : State) (e : EngineError) (pos sym : Nat) : (s.raise e pos sym).dst = s.dst := rfl
@[simp] theorem State.raise_tok (s : State) (e : EngineError) (pos sym : Nat) : (s.raise e pos sym).tok = s.tok := rfl
@[simp] theorem State.raise_freq (s : State) (e : EngineError) (pos sym : Nat) : (s.raise e pos sym).freq = s.freq := rfl
@[simp] theorem State.raise_code (s : State) (e : EngineError) (pos sym : Nat) : (s.raise e pos sym).code = s.code := rfl
@[simp] theorem State.raise_node (s : State) (e : EngineError) (pos sym : Nat) : (s.raise e pos sym).node = s.node := rfl
@[simp] theorem State.raise_phase (s : State) (e : EngineError) (pos sym : Nat) : (s.raise e pos sym).phase = .idle := rfl
@[simp] theorem State.raise_latchCmd (s : State) (e : EngineError) (pos sym : Nat) : (s.raise e pos sym).latchCmd = s.latchCmd := rfl
@[simp] theorem State.raise_latchArg (s : State) (e : EngineError) (pos sym : Nat) : (s.raise e pos sym).latchArg = s.latchArg := rfl
@[simp] theorem State.raise_dec (s : State) (e : EngineError) (pos sym : Nat) : (s.raise e pos sym).dec = DecodeVars.zero := rfl
@[simp] theorem State.raise_params (s : State) (e : EngineError) (pos sym : Nat) : (s.raise e pos sym).params = s.params := rfl
@[simp] theorem State.raise_pending (s : State) (e : EngineError) (pos sym : Nat) : (s.raise e pos sym).pending = s.pending := rfl
@[simp] theorem State.raise_portData (s : State) (e : EngineError) (pos sym : Nat) : (s.raise e pos sym).portData = s.portData := rfl
@[simp] theorem State.raise_draws (s : State) (e : EngineError) (pos sym : Nat) : (s.raise e pos sym).draws = s.draws := rfl
@[simp] theorem State.raise_ramEpoch (s : State) (e : EngineError) (pos sym : Nat) : (s.raise e pos sym).ramEpoch = s.ramEpoch := rfl
@[simp] theorem State.raise_srcAt (s : State) (e : EngineError) (pos sym : Nat) (i : Nat) : (s.raise e pos sym).srcAt i = s.srcAt i := rfl
@[simp] theorem State.raise_dstAt (s : State) (e : EngineError) (pos sym : Nat) (i : Nat) : (s.raise e pos sym).dstAt i = s.dstAt i := rfl
@[simp] theorem State.raise_tokAt (s : State) (e : EngineError) (pos sym : Nat) (i : Nat) : (s.raise e pos sym).tokAt i = s.tokAt i := rfl
@[simp] theorem State.raise_freqAt (s : State) (e : EngineError) (pos sym : Nat) (i : Nat) : (s.raise e pos sym).freqAt i = s.freqAt i := rfl
@[simp] theorem State.raise_codeAt (s : State) (e : EngineError) (pos sym : Nat) (i : Nat) : (s.raise e pos sym).codeAt i = s.codeAt i := rfl
@[simp] theorem State.raise_nodeAt (s : State) (e : EngineError) (pos sym : Nat) (i : Nat) : (s.raise e pos sym).nodeAt i = s.nodeAt i := rfl

/-! accept -/

@[simp] theorem State.accept_cmd (s : State) (w : Word) : (s.accept w).cmd = w := rfl
@[simp] theorem State.accept_arg (s : State) (w : Word) : (s.accept w).arg = s.arg := rfl
@[simp] theorem State.accept_res (s : State) (w : Word) : (s.accept w).res = s.res := rfl
@[simp] theorem State.accept_status (s : State) (w : Word) : (s.accept w).status = s.status.accepted := rfl
@[simp] theorem State.accept_errPos (s : State) (w : Word) : (s.accept w).errPos = s.errPos := rfl
@[simp] theorem State.accept_errSym (s : State) (w : Word) : (s.accept w).errSym = s.errSym := rfl
@[simp] theorem State.accept_cfg (s : State) (w : Word) : (s.accept w).cfg = s.cfg := rfl
@[simp] theorem State.accept_bw (s : State) (w : Word) : (s.accept w).bw = s.bw := rfl
@[simp] theorem State.accept_br (s : State) (w : Word) : (s.accept w).br = s.br := rfl
@[simp] theorem State.accept_tokCount (s : State) (w : Word) : (s.accept w).tokCount = s.tokCount := rfl
@[simp] theorem State.accept_tree (s : State) (w : Word) : (s.accept w).tree = s.tree := rfl
@[simp] theorem State.accept_outLen (s : State) (w : Word) : (s.accept w).outLen = s.outLen := rfl
@[simp] theorem State.accept_src (s : State) (w : Word) : (s.accept w).src = s.src := rfl
@[simp] theorem State.accept_dst (s : State) (w : Word) : (s.accept w).dst = s.dst := rfl
@[simp] theorem State.accept_tok (s : State) (w : Word) : (s.accept w).tok = s.tok := rfl
@[simp] theorem State.accept_freq (s : State) (w : Word) : (s.accept w).freq = s.freq := rfl
@[simp] theorem State.accept_code (s : State) (w : Word) : (s.accept w).code = s.code := rfl
@[simp] theorem State.accept_node (s : State) (w : Word) : (s.accept w).node = s.node := rfl
@[simp] theorem State.accept_phase (s : State) (w : Word) : (s.accept w).phase = .latched := rfl
@[simp] theorem State.accept_latchCmd (s : State) (w : Word) : (s.accept w).latchCmd = w := rfl
@[simp] theorem State.accept_latchArg (s : State) (w : Word) : (s.accept w).latchArg = s.arg := rfl
@[simp] theorem State.accept_dec (s : State) (w : Word) : (s.accept w).dec = s.dec := rfl
@[simp] theorem State.accept_params (s : State) (w : Word) : (s.accept w).params = s.params := rfl
@[simp] theorem State.accept_pending (s : State) (w : Word) : (s.accept w).pending = s.pending := rfl
@[simp] theorem State.accept_portData (s : State) (w : Word) : (s.accept w).portData = s.portData := rfl
@[simp] theorem State.accept_draws (s : State) (w : Word) : (s.accept w).draws = s.draws := rfl
@[simp] theorem State.accept_ramEpoch (s : State) (w : Word) : (s.accept w).ramEpoch = s.ramEpoch := rfl
@[simp] theorem State.accept_srcAt (s : State) (w : Word) (i : Nat) : (s.accept w).srcAt i = s.srcAt i := rfl
@[simp] theorem State.accept_dstAt (s : State) (w : Word) (i : Nat) : (s.accept w).dstAt i = s.dstAt i := rfl
@[simp] theorem State.accept_tokAt (s : State) (w : Word) (i : Nat) : (s.accept w).tokAt i = s.tokAt i := rfl
@[simp] theorem State.accept_freqAt (s : State) (w : Word) (i : Nat) : (s.accept w).freqAt i = s.freqAt i := rfl
@[simp] theorem State.accept_codeAt (s : State) (w : Word) (i : Nat) : (s.accept w).codeAt i = s.codeAt i := rfl
@[simp] theorem State.accept_nodeAt (s : State) (w : Word) (i : Nat) : (s.accept w).nodeAt i = s.nodeAt i := rfl

/-! putDst -/

@[simp] theorem State.putDst_cmd (s : State) (k : Nat) (vs : List Byte) : (s.putDst k vs).cmd = s.cmd := rfl
@[simp] theorem State.putDst_arg (s : State) (k : Nat) (vs : List Byte) : (s.putDst k vs).arg = s.arg := rfl
@[simp] theorem State.putDst_res (s : State) (k : Nat) (vs : List Byte) : (s.putDst k vs).res = s.res := rfl
@[simp] theorem State.putDst_status (s : State) (k : Nat) (vs : List Byte) : (s.putDst k vs).status = s.status := rfl
@[simp] theorem State.putDst_errPos (s : State) (k : Nat) (vs : List Byte) : (s.putDst k vs).errPos = s.errPos := rfl
@[simp] theorem State.putDst_errSym (s : State) (k : Nat) (vs : List Byte) : (s.putDst k vs).errSym = s.errSym := rfl
@[simp] theorem State.putDst_cfg (s : State) (k : Nat) (vs : List Byte) : (s.putDst k vs).cfg = s.cfg := rfl
@[simp] theorem State.putDst_bw (s : State) (k : Nat) (vs : List Byte) : (s.putDst k vs).bw = s.bw := rfl
@[simp] theorem State.putDst_br (s : State) (k : Nat) (vs : List Byte) : (s.putDst k vs).br = s.br := rfl
@[simp] theorem State.putDst_tokCount (s : State) (k : Nat) (vs : List Byte) : (s.putDst k vs).tokCount = s.tokCount := rfl
@[simp] theorem State.putDst_tree (s : State) (k : Nat) (vs : List Byte) : (s.putDst k vs).tree = s.tree := rfl
@[simp] theorem State.putDst_outLen (s : State) (k : Nat) (vs : List Byte) : (s.putDst k vs).outLen = s.outLen := rfl
@[simp] theorem State.putDst_src (s : State) (k : Nat) (vs : List Byte) : (s.putDst k vs).src = s.src := rfl
@[simp] theorem State.putDst_dst (s : State) (k : Nat) (vs : List Byte) : (s.putDst k vs).dst = s.dst.put k vs := rfl
@[simp] theorem State.putDst_tok (s : State) (k : Nat) (vs : List Byte) : (s.putDst k vs).tok = s.tok := rfl
@[simp] theorem State.putDst_freq (s : State) (k : Nat) (vs : List Byte) : (s.putDst k vs).freq = s.freq := rfl
@[simp] theorem State.putDst_code (s : State) (k : Nat) (vs : List Byte) : (s.putDst k vs).code = s.code := rfl
@[simp] theorem State.putDst_node (s : State) (k : Nat) (vs : List Byte) : (s.putDst k vs).node = s.node := rfl
@[simp] theorem State.putDst_phase (s : State) (k : Nat) (vs : List Byte) : (s.putDst k vs).phase = s.phase := rfl
@[simp] theorem State.putDst_latchCmd (s : State) (k : Nat) (vs : List Byte) : (s.putDst k vs).latchCmd = s.latchCmd := rfl
@[simp] theorem State.putDst_latchArg (s : State) (k : Nat) (vs : List Byte) : (s.putDst k vs).latchArg = s.latchArg := rfl
@[simp] theorem State.putDst_dec (s : State) (k : Nat) (vs : List Byte) : (s.putDst k vs).dec = s.dec := rfl
@[simp] theorem State.putDst_params (s : State) (k : Nat) (vs : List Byte) : (s.putDst k vs).params = s.params := rfl
@[simp] theorem State.putDst_pending (s : State) (k : Nat) (vs : List Byte) : (s.putDst k vs).pending = s.pending := rfl
@[simp] theorem State.putDst_portData (s : State) (k : Nat) (vs : List Byte) : (s.putDst k vs).portData = s.portData := rfl
@[simp] theorem State.putDst_draws (s : State) (k : Nat) (vs : List Byte) : (s.putDst k vs).draws = s.draws := rfl
@[simp] theorem State.putDst_ramEpoch (s : State) (k : Nat) (vs : List Byte) : (s.putDst k vs).ramEpoch = s.ramEpoch := rfl

/-! putTok -/

@[simp] theorem State.putTok_cmd (s : State) (k : Nat) (vs : List Half) : (s.putTok k vs).cmd = s.cmd := rfl
@[simp] theorem State.putTok_arg (s : State) (k : Nat) (vs : List Half) : (s.putTok k vs).arg = s.arg := rfl
@[simp] theorem State.putTok_res (s : State) (k : Nat) (vs : List Half) : (s.putTok k vs).res = s.res := rfl
@[simp] theorem State.putTok_status (s : State) (k : Nat) (vs : List Half) : (s.putTok k vs).status = s.status := rfl
@[simp] theorem State.putTok_errPos (s : State) (k : Nat) (vs : List Half) : (s.putTok k vs).errPos = s.errPos := rfl
@[simp] theorem State.putTok_errSym (s : State) (k : Nat) (vs : List Half) : (s.putTok k vs).errSym = s.errSym := rfl
@[simp] theorem State.putTok_cfg (s : State) (k : Nat) (vs : List Half) : (s.putTok k vs).cfg = s.cfg := rfl
@[simp] theorem State.putTok_bw (s : State) (k : Nat) (vs : List Half) : (s.putTok k vs).bw = s.bw := rfl
@[simp] theorem State.putTok_br (s : State) (k : Nat) (vs : List Half) : (s.putTok k vs).br = s.br := rfl
@[simp] theorem State.putTok_tokCount (s : State) (k : Nat) (vs : List Half) : (s.putTok k vs).tokCount = s.tokCount := rfl
@[simp] theorem State.putTok_tree (s : State) (k : Nat) (vs : List Half) : (s.putTok k vs).tree = s.tree := rfl
@[simp] theorem State.putTok_outLen (s : State) (k : Nat) (vs : List Half) : (s.putTok k vs).outLen = s.outLen := rfl
@[simp] theorem State.putTok_src (s : State) (k : Nat) (vs : List Half) : (s.putTok k vs).src = s.src := rfl
@[simp] theorem State.putTok_dst (s : State) (k : Nat) (vs : List Half) : (s.putTok k vs).dst = s.dst := rfl
@[simp] theorem State.putTok_tok (s : State) (k : Nat) (vs : List Half) : (s.putTok k vs).tok = s.tok.put k vs := rfl
@[simp] theorem State.putTok_freq (s : State) (k : Nat) (vs : List Half) : (s.putTok k vs).freq = s.freq := rfl
@[simp] theorem State.putTok_code (s : State) (k : Nat) (vs : List Half) : (s.putTok k vs).code = s.code := rfl
@[simp] theorem State.putTok_node (s : State) (k : Nat) (vs : List Half) : (s.putTok k vs).node = s.node := rfl
@[simp] theorem State.putTok_phase (s : State) (k : Nat) (vs : List Half) : (s.putTok k vs).phase = s.phase := rfl
@[simp] theorem State.putTok_latchCmd (s : State) (k : Nat) (vs : List Half) : (s.putTok k vs).latchCmd = s.latchCmd := rfl
@[simp] theorem State.putTok_latchArg (s : State) (k : Nat) (vs : List Half) : (s.putTok k vs).latchArg = s.latchArg := rfl
@[simp] theorem State.putTok_dec (s : State) (k : Nat) (vs : List Half) : (s.putTok k vs).dec = s.dec := rfl
@[simp] theorem State.putTok_params (s : State) (k : Nat) (vs : List Half) : (s.putTok k vs).params = s.params := rfl
@[simp] theorem State.putTok_pending (s : State) (k : Nat) (vs : List Half) : (s.putTok k vs).pending = s.pending := rfl
@[simp] theorem State.putTok_portData (s : State) (k : Nat) (vs : List Half) : (s.putTok k vs).portData = s.portData := rfl
@[simp] theorem State.putTok_draws (s : State) (k : Nat) (vs : List Half) : (s.putTok k vs).draws = s.draws := rfl
@[simp] theorem State.putTok_ramEpoch (s : State) (k : Nat) (vs : List Half) : (s.putTok k vs).ramEpoch = s.ramEpoch := rfl

/-! putFreq -/

@[simp] theorem State.putFreq_cmd (s : State) (k : Nat) (vs : List Half) : (s.putFreq k vs).cmd = s.cmd := rfl
@[simp] theorem State.putFreq_arg (s : State) (k : Nat) (vs : List Half) : (s.putFreq k vs).arg = s.arg := rfl
@[simp] theorem State.putFreq_res (s : State) (k : Nat) (vs : List Half) : (s.putFreq k vs).res = s.res := rfl
@[simp] theorem State.putFreq_status (s : State) (k : Nat) (vs : List Half) : (s.putFreq k vs).status = s.status := rfl
@[simp] theorem State.putFreq_errPos (s : State) (k : Nat) (vs : List Half) : (s.putFreq k vs).errPos = s.errPos := rfl
@[simp] theorem State.putFreq_errSym (s : State) (k : Nat) (vs : List Half) : (s.putFreq k vs).errSym = s.errSym := rfl
@[simp] theorem State.putFreq_cfg (s : State) (k : Nat) (vs : List Half) : (s.putFreq k vs).cfg = s.cfg := rfl
@[simp] theorem State.putFreq_bw (s : State) (k : Nat) (vs : List Half) : (s.putFreq k vs).bw = s.bw := rfl
@[simp] theorem State.putFreq_br (s : State) (k : Nat) (vs : List Half) : (s.putFreq k vs).br = s.br := rfl
@[simp] theorem State.putFreq_tokCount (s : State) (k : Nat) (vs : List Half) : (s.putFreq k vs).tokCount = s.tokCount := rfl
@[simp] theorem State.putFreq_tree (s : State) (k : Nat) (vs : List Half) : (s.putFreq k vs).tree = s.tree := rfl
@[simp] theorem State.putFreq_outLen (s : State) (k : Nat) (vs : List Half) : (s.putFreq k vs).outLen = s.outLen := rfl
@[simp] theorem State.putFreq_src (s : State) (k : Nat) (vs : List Half) : (s.putFreq k vs).src = s.src := rfl
@[simp] theorem State.putFreq_dst (s : State) (k : Nat) (vs : List Half) : (s.putFreq k vs).dst = s.dst := rfl
@[simp] theorem State.putFreq_tok (s : State) (k : Nat) (vs : List Half) : (s.putFreq k vs).tok = s.tok := rfl
@[simp] theorem State.putFreq_freq (s : State) (k : Nat) (vs : List Half) : (s.putFreq k vs).freq = s.freq.put k vs := rfl
@[simp] theorem State.putFreq_code (s : State) (k : Nat) (vs : List Half) : (s.putFreq k vs).code = s.code := rfl
@[simp] theorem State.putFreq_node (s : State) (k : Nat) (vs : List Half) : (s.putFreq k vs).node = s.node := rfl
@[simp] theorem State.putFreq_phase (s : State) (k : Nat) (vs : List Half) : (s.putFreq k vs).phase = s.phase := rfl
@[simp] theorem State.putFreq_latchCmd (s : State) (k : Nat) (vs : List Half) : (s.putFreq k vs).latchCmd = s.latchCmd := rfl
@[simp] theorem State.putFreq_latchArg (s : State) (k : Nat) (vs : List Half) : (s.putFreq k vs).latchArg = s.latchArg := rfl
@[simp] theorem State.putFreq_dec (s : State) (k : Nat) (vs : List Half) : (s.putFreq k vs).dec = s.dec := rfl
@[simp] theorem State.putFreq_params (s : State) (k : Nat) (vs : List Half) : (s.putFreq k vs).params = s.params := rfl
@[simp] theorem State.putFreq_pending (s : State) (k : Nat) (vs : List Half) : (s.putFreq k vs).pending = s.pending := rfl
@[simp] theorem State.putFreq_portData (s : State) (k : Nat) (vs : List Half) : (s.putFreq k vs).portData = s.portData := rfl
@[simp] theorem State.putFreq_draws (s : State) (k : Nat) (vs : List Half) : (s.putFreq k vs).draws = s.draws := rfl
@[simp] theorem State.putFreq_ramEpoch (s : State) (k : Nat) (vs : List Half) : (s.putFreq k vs).ramEpoch = s.ramEpoch := rfl

/-! putCode -/

@[simp] theorem State.putCode_cmd (s : State) (k : Nat) (vs : List Word) : (s.putCode k vs).cmd = s.cmd := rfl
@[simp] theorem State.putCode_arg (s : State) (k : Nat) (vs : List Word) : (s.putCode k vs).arg = s.arg := rfl
@[simp] theorem State.putCode_res (s : State) (k : Nat) (vs : List Word) : (s.putCode k vs).res = s.res := rfl
@[simp] theorem State.putCode_status (s : State) (k : Nat) (vs : List Word) : (s.putCode k vs).status = s.status := rfl
@[simp] theorem State.putCode_errPos (s : State) (k : Nat) (vs : List Word) : (s.putCode k vs).errPos = s.errPos := rfl
@[simp] theorem State.putCode_errSym (s : State) (k : Nat) (vs : List Word) : (s.putCode k vs).errSym = s.errSym := rfl
@[simp] theorem State.putCode_cfg (s : State) (k : Nat) (vs : List Word) : (s.putCode k vs).cfg = s.cfg := rfl
@[simp] theorem State.putCode_bw (s : State) (k : Nat) (vs : List Word) : (s.putCode k vs).bw = s.bw := rfl
@[simp] theorem State.putCode_br (s : State) (k : Nat) (vs : List Word) : (s.putCode k vs).br = s.br := rfl
@[simp] theorem State.putCode_tokCount (s : State) (k : Nat) (vs : List Word) : (s.putCode k vs).tokCount = s.tokCount := rfl
@[simp] theorem State.putCode_tree (s : State) (k : Nat) (vs : List Word) : (s.putCode k vs).tree = s.tree := rfl
@[simp] theorem State.putCode_outLen (s : State) (k : Nat) (vs : List Word) : (s.putCode k vs).outLen = s.outLen := rfl
@[simp] theorem State.putCode_src (s : State) (k : Nat) (vs : List Word) : (s.putCode k vs).src = s.src := rfl
@[simp] theorem State.putCode_dst (s : State) (k : Nat) (vs : List Word) : (s.putCode k vs).dst = s.dst := rfl
@[simp] theorem State.putCode_tok (s : State) (k : Nat) (vs : List Word) : (s.putCode k vs).tok = s.tok := rfl
@[simp] theorem State.putCode_freq (s : State) (k : Nat) (vs : List Word) : (s.putCode k vs).freq = s.freq := rfl
@[simp] theorem State.putCode_code (s : State) (k : Nat) (vs : List Word) : (s.putCode k vs).code = s.code.put k vs := rfl
@[simp] theorem State.putCode_node (s : State) (k : Nat) (vs : List Word) : (s.putCode k vs).node = s.node := rfl
@[simp] theorem State.putCode_phase (s : State) (k : Nat) (vs : List Word) : (s.putCode k vs).phase = s.phase := rfl
@[simp] theorem State.putCode_latchCmd (s : State) (k : Nat) (vs : List Word) : (s.putCode k vs).latchCmd = s.latchCmd := rfl
@[simp] theorem State.putCode_latchArg (s : State) (k : Nat) (vs : List Word) : (s.putCode k vs).latchArg = s.latchArg := rfl
@[simp] theorem State.putCode_dec (s : State) (k : Nat) (vs : List Word) : (s.putCode k vs).dec = s.dec := rfl
@[simp] theorem State.putCode_params (s : State) (k : Nat) (vs : List Word) : (s.putCode k vs).params = s.params := rfl
@[simp] theorem State.putCode_pending (s : State) (k : Nat) (vs : List Word) : (s.putCode k vs).pending = s.pending := rfl
@[simp] theorem State.putCode_portData (s : State) (k : Nat) (vs : List Word) : (s.putCode k vs).portData = s.portData := rfl
@[simp] theorem State.putCode_draws (s : State) (k : Nat) (vs : List Word) : (s.putCode k vs).draws = s.draws := rfl
@[simp] theorem State.putCode_ramEpoch (s : State) (k : Nat) (vs : List Word) : (s.putCode k vs).ramEpoch = s.ramEpoch := rfl

/-! putNode -/

@[simp] theorem State.putNode_cmd (s : State) (k : Nat) (vs : List Word) : (s.putNode k vs).cmd = s.cmd := rfl
@[simp] theorem State.putNode_arg (s : State) (k : Nat) (vs : List Word) : (s.putNode k vs).arg = s.arg := rfl
@[simp] theorem State.putNode_res (s : State) (k : Nat) (vs : List Word) : (s.putNode k vs).res = s.res := rfl
@[simp] theorem State.putNode_status (s : State) (k : Nat) (vs : List Word) : (s.putNode k vs).status = s.status := rfl
@[simp] theorem State.putNode_errPos (s : State) (k : Nat) (vs : List Word) : (s.putNode k vs).errPos = s.errPos := rfl
@[simp] theorem State.putNode_errSym (s : State) (k : Nat) (vs : List Word) : (s.putNode k vs).errSym = s.errSym := rfl
@[simp] theorem State.putNode_cfg (s : State) (k : Nat) (vs : List Word) : (s.putNode k vs).cfg = s.cfg := rfl
@[simp] theorem State.putNode_bw (s : State) (k : Nat) (vs : List Word) : (s.putNode k vs).bw = s.bw := rfl
@[simp] theorem State.putNode_br (s : State) (k : Nat) (vs : List Word) : (s.putNode k vs).br = s.br := rfl
@[simp] theorem State.putNode_tokCount (s : State) (k : Nat) (vs : List Word) : (s.putNode k vs).tokCount = s.tokCount := rfl
@[simp] theorem State.putNode_tree (s : State) (k : Nat) (vs : List Word) : (s.putNode k vs).tree = s.tree := rfl
@[simp] theorem State.putNode_outLen (s : State) (k : Nat) (vs : List Word) : (s.putNode k vs).outLen = s.outLen := rfl
@[simp] theorem State.putNode_src (s : State) (k : Nat) (vs : List Word) : (s.putNode k vs).src = s.src := rfl
@[simp] theorem State.putNode_dst (s : State) (k : Nat) (vs : List Word) : (s.putNode k vs).dst = s.dst := rfl
@[simp] theorem State.putNode_tok (s : State) (k : Nat) (vs : List Word) : (s.putNode k vs).tok = s.tok := rfl
@[simp] theorem State.putNode_freq (s : State) (k : Nat) (vs : List Word) : (s.putNode k vs).freq = s.freq := rfl
@[simp] theorem State.putNode_code (s : State) (k : Nat) (vs : List Word) : (s.putNode k vs).code = s.code := rfl
@[simp] theorem State.putNode_node (s : State) (k : Nat) (vs : List Word) : (s.putNode k vs).node = s.node.put k vs := rfl
@[simp] theorem State.putNode_phase (s : State) (k : Nat) (vs : List Word) : (s.putNode k vs).phase = s.phase := rfl
@[simp] theorem State.putNode_latchCmd (s : State) (k : Nat) (vs : List Word) : (s.putNode k vs).latchCmd = s.latchCmd := rfl
@[simp] theorem State.putNode_latchArg (s : State) (k : Nat) (vs : List Word) : (s.putNode k vs).latchArg = s.latchArg := rfl
@[simp] theorem State.putNode_dec (s : State) (k : Nat) (vs : List Word) : (s.putNode k vs).dec = s.dec := rfl
@[simp] theorem State.putNode_params (s : State) (k : Nat) (vs : List Word) : (s.putNode k vs).params = s.params := rfl
@[simp] theorem State.putNode_pending (s : State) (k : Nat) (vs : List Word) : (s.putNode k vs).pending = s.pending := rfl
@[simp] theorem State.putNode_portData (s : State) (k : Nat) (vs : List Word) : (s.putNode k vs).portData = s.portData := rfl
@[simp] theorem State.putNode_draws (s : State) (k : Nat) (vs : List Word) : (s.putNode k vs).draws = s.draws := rfl
@[simp] theorem State.putNode_ramEpoch (s : State) (k : Nat) (vs : List Word) : (s.putNode k vs).ramEpoch = s.ramEpoch := rfl

/-! appendByte -/

@[simp] theorem State.appendByte_cmd (s : State) (v : Byte) : (s.appendByte v).cmd = s.cmd := rfl
@[simp] theorem State.appendByte_arg (s : State) (v : Byte) : (s.appendByte v).arg = s.arg := rfl
@[simp] theorem State.appendByte_res (s : State) (v : Byte) : (s.appendByte v).res = s.res := rfl
@[simp] theorem State.appendByte_status (s : State) (v : Byte) : (s.appendByte v).status = s.status := rfl
@[simp] theorem State.appendByte_errPos (s : State) (v : Byte) : (s.appendByte v).errPos = s.errPos := rfl
@[simp] theorem State.appendByte_errSym (s : State) (v : Byte) : (s.appendByte v).errSym = s.errSym := rfl
@[simp] theorem State.appendByte_cfg (s : State) (v : Byte) : (s.appendByte v).cfg = s.cfg := rfl
@[simp] theorem State.appendByte_bw (s : State) (v : Byte) : (s.appendByte v).bw = s.bw := rfl
@[simp] theorem State.appendByte_br (s : State) (v : Byte) : (s.appendByte v).br = s.br := rfl
@[simp] theorem State.appendByte_tokCount (s : State) (v : Byte) : (s.appendByte v).tokCount = s.tokCount := rfl
@[simp] theorem State.appendByte_tree (s : State) (v : Byte) : (s.appendByte v).tree = s.tree := rfl
@[simp] theorem State.appendByte_outLen (s : State) (v : Byte) : (s.appendByte v).outLen = Word.ofNat (s.outLen.toNat + 1) := rfl
@[simp] theorem State.appendByte_src (s : State) (v : Byte) : (s.appendByte v).src = s.src := rfl
@[simp] theorem State.appendByte_dst (s : State) (v : Byte) : (s.appendByte v).dst = s.dst.put s.outLen.toNat [v] := rfl
@[simp] theorem State.appendByte_tok (s : State) (v : Byte) : (s.appendByte v).tok = s.tok := rfl
@[simp] theorem State.appendByte_freq (s : State) (v : Byte) : (s.appendByte v).freq = s.freq := rfl
@[simp] theorem State.appendByte_code (s : State) (v : Byte) : (s.appendByte v).code = s.code := rfl
@[simp] theorem State.appendByte_node (s : State) (v : Byte) : (s.appendByte v).node = s.node := rfl
@[simp] theorem State.appendByte_phase (s : State) (v : Byte) : (s.appendByte v).phase = s.phase := rfl
@[simp] theorem State.appendByte_latchCmd (s : State) (v : Byte) : (s.appendByte v).latchCmd = s.latchCmd := rfl
@[simp] theorem State.appendByte_latchArg (s : State) (v : Byte) : (s.appendByte v).latchArg = s.latchArg := rfl
@[simp] theorem State.appendByte_dec (s : State) (v : Byte) : (s.appendByte v).dec = s.dec := rfl
@[simp] theorem State.appendByte_params (s : State) (v : Byte) : (s.appendByte v).params = s.params := rfl
@[simp] theorem State.appendByte_pending (s : State) (v : Byte) : (s.appendByte v).pending = s.pending := rfl
@[simp] theorem State.appendByte_portData (s : State) (v : Byte) : (s.appendByte v).portData = s.portData := rfl
@[simp] theorem State.appendByte_draws (s : State) (v : Byte) : (s.appendByte v).draws = s.draws := rfl
@[simp] theorem State.appendByte_ramEpoch (s : State) (v : Byte) : (s.appendByte v).ramEpoch = s.ramEpoch := rfl

/-! afterDone -/

@[simp] theorem State.afterDone_cmd (s : State) (q : Quad) : (s.afterDone q).cmd = s.cmd := rfl
@[simp] theorem State.afterDone_arg (s : State) (q : Quad) : (s.afterDone q).arg = s.arg := rfl
@[simp] theorem State.afterDone_res (s : State) (q : Quad) : (s.afterDone q).res = q := rfl
@[simp] theorem State.afterDone_status (s : State) (q : Quad) : (s.afterDone q).status = { done := true, err := false, wdrop := s.status.wdrop, code := none } := rfl
@[simp] theorem State.afterDone_errPos (s : State) (q : Quad) : (s.afterDone q).errPos = 0 := rfl
@[simp] theorem State.afterDone_errSym (s : State) (q : Quad) : (s.afterDone q).errSym = 0 := rfl
@[simp] theorem State.afterDone_cfg (s : State) (q : Quad) : (s.afterDone q).cfg = s.cfg := rfl
@[simp] theorem State.afterDone_bw (s : State) (q : Quad) : (s.afterDone q).bw = s.bw := rfl
@[simp] theorem State.afterDone_br (s : State) (q : Quad) : (s.afterDone q).br = s.br := rfl
@[simp] theorem State.afterDone_tokCount (s : State) (q : Quad) : (s.afterDone q).tokCount = s.tokCount := rfl
@[simp] theorem State.afterDone_tree (s : State) (q : Quad) : (s.afterDone q).tree = s.tree := rfl
@[simp] theorem State.afterDone_outLen (s : State) (q : Quad) : (s.afterDone q).outLen = s.outLen := rfl
@[simp] theorem State.afterDone_src (s : State) (q : Quad) : (s.afterDone q).src = s.src := rfl
@[simp] theorem State.afterDone_dst (s : State) (q : Quad) : (s.afterDone q).dst = s.dst := rfl
@[simp] theorem State.afterDone_tok (s : State) (q : Quad) : (s.afterDone q).tok = s.tok := rfl
@[simp] theorem State.afterDone_freq (s : State) (q : Quad) : (s.afterDone q).freq = s.freq := rfl
@[simp] theorem State.afterDone_code (s : State) (q : Quad) : (s.afterDone q).code = s.code := rfl
@[simp] theorem State.afterDone_node (s : State) (q : Quad) : (s.afterDone q).node = s.node := rfl
@[simp] theorem State.afterDone_phase (s : State) (q : Quad) : (s.afterDone q).phase = .idle := rfl
@[simp] theorem State.afterDone_latchCmd (s : State) (q : Quad) : (s.afterDone q).latchCmd = s.latchCmd := rfl
@[simp] theorem State.afterDone_latchArg (s : State) (q : Quad) : (s.afterDone q).latchArg = s.latchArg := rfl
@[simp] theorem State.afterDone_dec (s : State) (q : Quad) : (s.afterDone q).dec = DecodeVars.zero := rfl
@[simp] theorem State.afterDone_params (s : State) (q : Quad) : (s.afterDone q).params = s.params := rfl
@[simp] theorem State.afterDone_pending (s : State) (q : Quad) : (s.afterDone q).pending = s.pending := rfl
@[simp] theorem State.afterDone_portData (s : State) (q : Quad) : (s.afterDone q).portData = s.portData := rfl
@[simp] theorem State.afterDone_draws (s : State) (q : Quad) : (s.afterDone q).draws = s.draws := rfl
@[simp] theorem State.afterDone_ramEpoch (s : State) (q : Quad) : (s.afterDone q).ramEpoch = s.ramEpoch := rfl
@[simp] theorem State.afterDone_srcAt (s : State) (q : Quad) (i : Nat) : (s.afterDone q).srcAt i = s.srcAt i := rfl
@[simp] theorem State.afterDone_dstAt (s : State) (q : Quad) (i : Nat) : (s.afterDone q).dstAt i = s.dstAt i := rfl
@[simp] theorem State.afterDone_tokAt (s : State) (q : Quad) (i : Nat) : (s.afterDone q).tokAt i = s.tokAt i := rfl
@[simp] theorem State.afterDone_freqAt (s : State) (q : Quad) (i : Nat) : (s.afterDone q).freqAt i = s.freqAt i := rfl
@[simp] theorem State.afterDone_codeAt (s : State) (q : Quad) (i : Nat) : (s.afterDone q).codeAt i = s.codeAt i := rfl
@[simp] theorem State.afterDone_nodeAt (s : State) (q : Quad) (i : Nat) : (s.afterDone q).nodeAt i = s.nodeAt i := rfl

/-! afterRaise -/

@[simp] theorem State.afterRaise_cmd (s : State) (e : EngineError) (pos sym : Nat) : (s.afterRaise e pos sym).cmd = s.cmd := rfl
@[simp] theorem State.afterRaise_arg (s : State) (e : EngineError) (pos sym : Nat) : (s.afterRaise e pos sym).arg = s.arg := rfl
@[simp] theorem State.afterRaise_res (s : State) (e : EngineError) (pos sym : Nat) : (s.afterRaise e pos sym).res = Quad.zero := rfl
@[simp] theorem State.afterRaise_status (s : State) (e : EngineError) (pos sym : Nat) : (s.afterRaise e pos sym).status = { done := false, err := true, wdrop := s.status.wdrop, code := some e } := rfl
@[simp] theorem State.afterRaise_errPos (s : State) (e : EngineError) (pos sym : Nat) : (s.afterRaise e pos sym).errPos = Word.ofNat pos := rfl
@[simp] theorem State.afterRaise_errSym (s : State) (e : EngineError) (pos sym : Nat) : (s.afterRaise e pos sym).errSym = Word.ofNat sym := rfl
@[simp] theorem State.afterRaise_cfg (s : State) (e : EngineError) (pos sym : Nat) : (s.afterRaise e pos sym).cfg = s.cfg := rfl
@[simp] theorem State.afterRaise_bw (s : State) (e : EngineError) (pos sym : Nat) : (s.afterRaise e pos sym).bw = s.bw := rfl
@[simp] theorem State.afterRaise_br (s : State) (e : EngineError) (pos sym : Nat) : (s.afterRaise e pos sym).br = s.br := rfl
@[simp] theorem State.afterRaise_tokCount (s : State) (e : EngineError) (pos sym : Nat) : (s.afterRaise e pos sym).tokCount = s.tokCount := rfl
@[simp] theorem State.afterRaise_tree (s : State) (e : EngineError) (pos sym : Nat) : (s.afterRaise e pos sym).tree = s.tree := rfl
@[simp] theorem State.afterRaise_outLen (s : State) (e : EngineError) (pos sym : Nat) : (s.afterRaise e pos sym).outLen = s.outLen := rfl
@[simp] theorem State.afterRaise_src (s : State) (e : EngineError) (pos sym : Nat) : (s.afterRaise e pos sym).src = s.src := rfl
@[simp] theorem State.afterRaise_dst (s : State) (e : EngineError) (pos sym : Nat) : (s.afterRaise e pos sym).dst = s.dst := rfl
@[simp] theorem State.afterRaise_tok (s : State) (e : EngineError) (pos sym : Nat) : (s.afterRaise e pos sym).tok = s.tok := rfl
@[simp] theorem State.afterRaise_freq (s : State) (e : EngineError) (pos sym : Nat) : (s.afterRaise e pos sym).freq = s.freq := rfl
@[simp] theorem State.afterRaise_code (s : State) (e : EngineError) (pos sym : Nat) : (s.afterRaise e pos sym).code = s.code := rfl
@[simp] theorem State.afterRaise_node (s : State) (e : EngineError) (pos sym : Nat) : (s.afterRaise e pos sym).node = s.node := rfl
@[simp] theorem State.afterRaise_phase (s : State) (e : EngineError) (pos sym : Nat) : (s.afterRaise e pos sym).phase = .idle := rfl
@[simp] theorem State.afterRaise_latchCmd (s : State) (e : EngineError) (pos sym : Nat) : (s.afterRaise e pos sym).latchCmd = s.latchCmd := rfl
@[simp] theorem State.afterRaise_latchArg (s : State) (e : EngineError) (pos sym : Nat) : (s.afterRaise e pos sym).latchArg = s.latchArg := rfl
@[simp] theorem State.afterRaise_dec (s : State) (e : EngineError) (pos sym : Nat) : (s.afterRaise e pos sym).dec = DecodeVars.zero := rfl
@[simp] theorem State.afterRaise_params (s : State) (e : EngineError) (pos sym : Nat) : (s.afterRaise e pos sym).params = s.params := rfl
@[simp] theorem State.afterRaise_pending (s : State) (e : EngineError) (pos sym : Nat) : (s.afterRaise e pos sym).pending = s.pending := rfl
@[simp] theorem State.afterRaise_portData (s : State) (e : EngineError) (pos sym : Nat) : (s.afterRaise e pos sym).portData = s.portData := rfl
@[simp] theorem State.afterRaise_draws (s : State) (e : EngineError) (pos sym : Nat) : (s.afterRaise e pos sym).draws = s.draws := rfl
@[simp] theorem State.afterRaise_ramEpoch (s : State) (e : EngineError) (pos sym : Nat) : (s.afterRaise e pos sym).ramEpoch = s.ramEpoch := rfl
@[simp] theorem State.afterRaise_srcAt (s : State) (e : EngineError) (pos sym : Nat) (i : Nat) : (s.afterRaise e pos sym).srcAt i = s.srcAt i := rfl
@[simp] theorem State.afterRaise_dstAt (s : State) (e : EngineError) (pos sym : Nat) (i : Nat) : (s.afterRaise e pos sym).dstAt i = s.dstAt i := rfl
@[simp] theorem State.afterRaise_tokAt (s : State) (e : EngineError) (pos sym : Nat) (i : Nat) : (s.afterRaise e pos sym).tokAt i = s.tokAt i := rfl
@[simp] theorem State.afterRaise_freqAt (s : State) (e : EngineError) (pos sym : Nat) (i : Nat) : (s.afterRaise e pos sym).freqAt i = s.freqAt i := rfl
@[simp] theorem State.afterRaise_codeAt (s : State) (e : EngineError) (pos sym : Nat) (i : Nat) : (s.afterRaise e pos sym).codeAt i = s.codeAt i := rfl
@[simp] theorem State.afterRaise_nodeAt (s : State) (e : EngineError) (pos sym : Nat) (i : Nat) : (s.afterRaise e pos sym).nodeAt i = s.nodeAt i := rfl

/-! withProgram -/

@[simp] theorem State.withProgram_cmd (s : State) (prog : List Stmt) : (s.withProgram prog).cmd = s.cmd := rfl
@[simp] theorem State.withProgram_arg (s : State) (prog : List Stmt) : (s.withProgram prog).arg = s.arg := rfl
@[simp] theorem State.withProgram_res (s : State) (prog : List Stmt) : (s.withProgram prog).res = s.res := rfl
@[simp] theorem State.withProgram_status (s : State) (prog : List Stmt) : (s.withProgram prog).status = s.status := rfl
@[simp] theorem State.withProgram_errPos (s : State) (prog : List Stmt) : (s.withProgram prog).errPos = s.errPos := rfl
@[simp] theorem State.withProgram_errSym (s : State) (prog : List Stmt) : (s.withProgram prog).errSym = s.errSym := rfl
@[simp] theorem State.withProgram_cfg (s : State) (prog : List Stmt) : (s.withProgram prog).cfg = s.cfg := rfl
@[simp] theorem State.withProgram_bw (s : State) (prog : List Stmt) : (s.withProgram prog).bw = s.bw := rfl
@[simp] theorem State.withProgram_br (s : State) (prog : List Stmt) : (s.withProgram prog).br = s.br := rfl
@[simp] theorem State.withProgram_tokCount (s : State) (prog : List Stmt) : (s.withProgram prog).tokCount = s.tokCount := rfl
@[simp] theorem State.withProgram_tree (s : State) (prog : List Stmt) : (s.withProgram prog).tree = s.tree := rfl
@[simp] theorem State.withProgram_outLen (s : State) (prog : List Stmt) : (s.withProgram prog).outLen = s.outLen := rfl
@[simp] theorem State.withProgram_src (s : State) (prog : List Stmt) : (s.withProgram prog).src = s.src := rfl
@[simp] theorem State.withProgram_dst (s : State) (prog : List Stmt) : (s.withProgram prog).dst = s.dst := rfl
@[simp] theorem State.withProgram_tok (s : State) (prog : List Stmt) : (s.withProgram prog).tok = s.tok := rfl
@[simp] theorem State.withProgram_freq (s : State) (prog : List Stmt) : (s.withProgram prog).freq = s.freq := rfl
@[simp] theorem State.withProgram_code (s : State) (prog : List Stmt) : (s.withProgram prog).code = s.code := rfl
@[simp] theorem State.withProgram_node (s : State) (prog : List Stmt) : (s.withProgram prog).node = s.node := rfl
@[simp] theorem State.withProgram_phase (s : State) (prog : List Stmt) : (s.withProgram prog).phase = s.phase := rfl
@[simp] theorem State.withProgram_latchCmd (s : State) (prog : List Stmt) : (s.withProgram prog).latchCmd = s.latchCmd := rfl
@[simp] theorem State.withProgram_latchArg (s : State) (prog : List Stmt) : (s.withProgram prog).latchArg = s.latchArg := rfl
@[simp] theorem State.withProgram_dec (s : State) (prog : List Stmt) : (s.withProgram prog).dec = s.dec := rfl
@[simp] theorem State.withProgram_params (s : State) (prog : List Stmt) : (s.withProgram prog).params = s.params := rfl
@[simp] theorem State.withProgram_pending (s : State) (prog : List Stmt) : (s.withProgram prog).pending = expandAll prog := rfl
@[simp] theorem State.withProgram_portData (s : State) (prog : List Stmt) : (s.withProgram prog).portData = s.portData := rfl
@[simp] theorem State.withProgram_draws (s : State) (prog : List Stmt) : (s.withProgram prog).draws = s.draws := rfl
@[simp] theorem State.withProgram_ramEpoch (s : State) (prog : List Stmt) : (s.withProgram prog).ramEpoch = s.ramEpoch := rfl
@[simp] theorem State.withProgram_srcAt (s : State) (prog : List Stmt) (i : Nat) : (s.withProgram prog).srcAt i = s.srcAt i := rfl
@[simp] theorem State.withProgram_dstAt (s : State) (prog : List Stmt) (i : Nat) : (s.withProgram prog).dstAt i = s.dstAt i := rfl
@[simp] theorem State.withProgram_tokAt (s : State) (prog : List Stmt) (i : Nat) : (s.withProgram prog).tokAt i = s.tokAt i := rfl
@[simp] theorem State.withProgram_freqAt (s : State) (prog : List Stmt) (i : Nat) : (s.withProgram prog).freqAt i = s.freqAt i := rfl
@[simp] theorem State.withProgram_codeAt (s : State) (prog : List Stmt) (i : Nat) : (s.withProgram prog).codeAt i = s.codeAt i := rfl
@[simp] theorem State.withProgram_nodeAt (s : State) (prog : List Stmt) (i : Nat) : (s.withProgram prog).nodeAt i = s.nodeAt i := rfl

/-! The flags -/

@[simp] theorem Status.accepted_done (f : Status) : f.accepted.done = false := rfl
@[simp] theorem Status.accepted_err (f : Status) : f.accepted.err = false := rfl
@[simp] theorem Status.accepted_wdrop (f : Status) : f.accepted.wdrop = f.wdrop := rfl
@[simp] theorem Status.accepted_code (f : Status) : f.accepted.code = none := rfl
@[simp] theorem Status.succeeded_done (f : Status) : f.succeeded.done = true := rfl
@[simp] theorem Status.succeeded_err (f : Status) : f.succeeded.err = false := rfl
@[simp] theorem Status.succeeded_wdrop (f : Status) : f.succeeded.wdrop = f.wdrop := rfl
@[simp] theorem Status.succeeded_code (f : Status) : f.succeeded.code = none := rfl
@[simp] theorem Status.failed_done (f : Status) (e : EngineError) : (f.failed e).done = false := rfl
@[simp] theorem Status.failed_err (f : Status) (e : EngineError) : (f.failed e).err = true := rfl
@[simp] theorem Status.failed_wdrop (f : Status) (e : EngineError) : (f.failed e).wdrop = f.wdrop := rfl
@[simp] theorem Status.failed_code (f : Status) (e : EngineError) : (f.failed e).code = some e := rfl
@[simp] theorem Status.dropped_done (f : Status) : f.dropped.done = f.done := rfl
@[simp] theorem Status.dropped_err (f : Status) : f.dropped.err = f.err := rfl
@[simp] theorem Status.dropped_wdrop (f : Status) : f.dropped.wdrop = true := rfl
@[simp] theorem Status.dropped_code (f : Status) : f.dropped.code = f.code := rfl
@[simp] theorem Status.hostWrite_done (f : Status) (v : Word) : (f.hostWrite v).done = f.done := rfl
@[simp] theorem Status.hostWrite_err (f : Status) (v : Word) : (f.hostWrite v).err = f.err := rfl
@[simp] theorem Status.hostWrite_wdrop (f : Status) (v : Word) : (f.hostWrite v).wdrop = (f.wdrop && !v.getLsbD 3) := rfl
@[simp] theorem Status.hostWrite_code (f : Status) (v : Word) : (f.hostWrite v).code = f.code := rfl

/-! The two ends of a command, in the terms of the claims -/

/-- done leaves what R143 says. -/
theorem State.complete_eq_afterDone (s : State) (r : Results) : s.complete r = s.afterDone (s.res.setResults r) := rfl

/-- raise leaves what R321 says. -/
theorem State.raise_eq_afterRaise (s : State) (e : EngineError) (pos sym : Nat) :
    s.raise e pos sym = s.afterRaise e pos sym := rfl

@[simp] theorem Quad.setResults_none (q : Quad) : q.setResults Results.none = q := rfl
@[simp] theorem setResult_none (w : Word) : setResult w none = w := rfl
@[simp] theorem setResult_some (w : Word) (v : Nat) : setResult w (some v) = Word.ofNat v := rfl
theorem Quad.setResults_mk (q : Quad) (a b c d : Option Nat) :
    q.setResults { r0 := a, r1 := b, r2 := c, r3 := d } =
      { r0 := setResult q.r0 a, r1 := setResult q.r1 b, r2 := setResult q.r2 c, r3 := setResult q.r3 d } := rfl

theorem State.busy_eq_false_iff (s : State) : s.busy = false ↔ s.phase = .idle := by
  cases h : s.phase <;> simp [State.busy, h]

theorem State.busy_eq_true_iff (s : State) : s.busy = true ↔ s.phase ≠ .idle := by
  cases h : s.phase <;> simp [State.busy, h]

@[simp] theorem State.busy_complete (s : State) (r : Results) : (s.complete r).busy = false := rfl
@[simp] theorem State.busy_raise (s : State) (e : EngineError) (pos sym : Nat) : (s.raise e pos sym).busy = false := rfl
@[simp] theorem State.busy_accept (s : State) (w : Word) : (s.accept w).busy = true := rfl

/-! Words -/

@[simp] theorem Word.ofNat_toNat (w : Word) : Word.ofNat w.toNat = w := by simp [Word.ofNat]

theorem Word.toNat_ofNat_of_lt {n : Nat} (h : n < 2 ^ 64) : (Word.ofNat n).toNat = n := by
  rw [Word.ofNat, BitVec.toNat_ofNat, Nat.mod_eq_of_lt h]

end Sys2Proof.Machine
end

