-- ==== Sys2Proof/Laws/Memory.lean ====
section
/-! SUPPORT. The memory operations: what a write reads back as, that it keeps the canonical form and the bounds, and that
canonical memories with the same reads are equal. -/

namespace Sys2Proof.Machine

@[simp] theorem Mem.get?_nil {w : Nat} (i : Nat) : Mem.get? ([] : Mem w) i = none := rfl

theorem Mem.get?_cons {w : Nat} (c : Nat × BitVec w) (m : Mem w) (i : Nat) :
    Mem.get? (c :: m) i = if c.1 = i then some c.2 else Mem.get? m i := by
  rw [Mem.get?]
  cases h : c.1.beq i with
  | true => rw [if_pos (Nat.eq_of_beq_eq_true h)]; rfl
  | false => rw [if_neg (Nat.ne_of_beq_eq_false h)]; rfl

theorem Mem.get?_append {w : Nat} (a b : Mem w) (i : Nat) :
    Mem.get? (a ++ b) i = (Mem.get? a i).or (Mem.get? b i) := by
  induction a with
  | nil => simp
  | cons x xs ih =>
    obtain ⟨k, v⟩ := x
    by_cases h : k = i <;> simp [Mem.get?_cons, h, ih]

/-- A filter on the index keeps what it selects and loses the rest. -/
theorem Mem.get?_filter {w : Nat} (m : Mem w) (p : Nat → Bool) (i : Nat) :
    Mem.get? (m.filter (fun c => p c.1)) i = if p i then Mem.get? m i else none := by
  induction m with
  | nil => simp
  | cons x xs ih =>
    obtain ⟨k, v⟩ := x
    by_cases hk : k = i
    · subst hk; cases h : p k <;> simp [h, Mem.get?_cons, ih]
    · cases h : p k <;> simp [h, Mem.get?_cons, hk, ih]

/-- Reading a memory is looking its list up. -/
theorem Mem.get?_eq_lookup {w : Nat} (m : Mem w) (i : Nat) : m.get? i = List.lookup i m := by
  induction m with
  | nil => rfl
  | cons c m ih =>
    obtain ⟨k, v⟩ := c
    rw [Mem.get?_cons, List.lookup_cons, ih]
    rcases eq_or_ne k i with rfl | h
    · simp
    · rw [if_neg h, beq_false_of_ne (Ne.symm h)]

theorem Mem.get?_cells {w : Nat} (vs : List (BitVec w)) (i j : Nat) :
    Mem.get? (Mem.cells i vs) j = if i ≤ j then vs[j - i]? else none := by
  induction vs generalizing i with
  | nil => simp [Mem.cells]
  | cons v vs ih =>
    by_cases h : i = j
    · subst h; simp [Mem.cells, Mem.get?_cons]
    · rw [Mem.cells, Mem.get?_cons, if_neg h, ih]
      by_cases hle : i ≤ j
      · rw [if_pos hle, if_pos (by omega), show j - i = (j - (i + 1)) + 1 by omega, List.getElem?_cons_succ]
      · rw [if_neg hle, if_neg (by omega)]

/-- Reading after a write: the written value inside, the old one elsewhere. -/
theorem Mem.get?_put {w : Nat} (m : Mem w) (i : Nat) (vs : List (BitVec w)) (j : Nat) :
    (m.put i vs).get? j = if i ≤ j ∧ j < i + vs.length then vs[j - i]? else m.get? j := by
  have hlo := Mem.get?_filter m (fun k => decide (k < i)) j
  have hhi := Mem.get?_filter m (fun k => decide (i + vs.length ≤ k)) j
  simp only [Mem.put, Mem.get?_append, Mem.get?_cells, hlo, hhi]
  rcases lt_or_ge j i with h | h
  · simp [h, show ¬i ≤ j by omega, show ¬i + vs.length ≤ j by omega]
  · rcases lt_or_ge j (i + vs.length) with h' | h'
    · simp [h, h', show ¬j < i by omega, show ¬i + vs.length ≤ j by omega]
    · simp [h, show ¬j < i by omega, h', show ¬j < i + vs.length by omega,
        List.getElem?_eq_none (show vs.length ≤ j - i by omega)]

theorem Mem.get?_put_self {w : Nat} (m : Mem w) (i : Nat) (v : BitVec w) : (m.put i [v]).get? i = some v := by
  simp [Mem.get?_put]

theorem Mem.get?_put_of_outside {w : Nat} (m : Mem w) (i : Nat) (vs : List (BitVec w)) (j : Nat)
    (h : j < i ∨ i + vs.length ≤ j) : (m.put i vs).get? j = m.get? j := by
  rw [Mem.get?_put, if_neg (by omega)]

theorem Mem.cells_index_bounds {w : Nat} (vs : List (BitVec w)) (i : Nat) (c : Nat × BitVec w)
    (h : c ∈ Mem.cells i vs) : i ≤ c.1 ∧ c.1 < i + vs.length := by
  induction vs generalizing i with
  | nil => simp [Mem.cells] at h
  | cons v vs ih =>
    rcases List.mem_cons.1 h with rfl | h
    · simp
    · have := ih (i + 1) h
      simp only [List.length_cons]; omega

theorem Mem.cells_wf {w : Nat} (vs : List (BitVec w)) (i : Nat) : Mem.wf (Mem.cells i vs) := by
  induction vs generalizing i with
  | nil => exact List.Pairwise.nil
  | cons v vs ih => exact List.Pairwise.cons (fun c hc => (cells_index_bounds vs (i + 1) c hc).1) (ih (i + 1))

/-- A write keeps the canonical form. -/
theorem Mem.put_wf {w : Nat} (m : Mem w) (i : Nat) (vs : List (BitVec w)) (h : m.wf) : (m.put i vs).wf := by
  have hlo : ∀ c ∈ m.filter (fun c => decide (c.1 < i)), c.1 < i := fun c hc => by simpa using (List.mem_filter.1 hc).2
  have hhi : ∀ c ∈ m.filter (fun c => decide (i + vs.length ≤ c.1)), i + vs.length ≤ c.1 :=
    fun c hc => by simpa using (List.mem_filter.1 hc).2
  refine List.pairwise_append.2 ⟨List.pairwise_append.2 ⟨h.filter _, cells_wf vs i, fun a ha b hb => ?_⟩, h.filter _,
    fun a ha b hb => ?_⟩
  · have := hlo a ha; have := cells_index_bounds vs i b hb; omega
  · rcases List.mem_append.1 ha with ha | ha
    · have := hlo a ha; have := hhi b hb; omega
    · have := cells_index_bounds vs i a ha; have := hhi b hb; omega

/-- A write inside the memory stays inside it. -/
theorem Mem.put_below {w : Nat} (m : Mem w) (i : Nat) (vs : List (BitVec w)) (n : Nat) (h : m.below n)
    (hn : i + vs.length ≤ n) : (m.put i vs).below n := by
  intro c hc
  rcases List.mem_append.1 hc with hc | hc
  · rcases List.mem_append.1 hc with hc | hc
    · exact h c (List.mem_filter.1 hc).1
    · have := cells_index_bounds vs i c hc; omega
  · exact h c (List.mem_filter.1 hc).1

/-- A read below every index of a canonical memory finds nothing. -/
theorem Mem.get?_eq_none_of_lt {w : Nat} (m : Mem w) (i : Nat) (h : ∀ c ∈ m, i < c.1) : m.get? i = none := by
  induction m with
  | nil => rfl
  | cons x xs ih =>
    have hx := h x (by simp)
    rw [Mem.get?_cons, if_neg (by omega), ih fun c hc => h c (by simp [hc])]

/-- Canonical memories with the same reads are the same data. -/
theorem Mem.eq_of_get?_eq {w : Nat} (m n : Mem w) (hm : m.wf) (hn : n.wf) (h : ∀ i, m.get? i = n.get? i) : m = n := by
  induction m generalizing n with
  | nil =>
    cases n with
    | nil => rfl
    | cons y ys => have := h y.1; simp [Mem.get?_cons] at this
  | cons x xs ih =>
    cases n with
    | nil => have := h x.1; simp [Mem.get?_cons] at this
    | cons y ys =>
      have hx := (List.pairwise_cons.1 hm).1
      have hy := (List.pairwise_cons.1 hn).1
      have hkey : x.1 = y.1 := by
        rcases lt_trichotomy x.1 y.1 with hlt | heq | hgt
        · have := h x.1
          rw [Mem.get?_cons, if_pos rfl, Mem.get?_cons, if_neg (by omega),
            get?_eq_none_of_lt ys x.1 (fun c hc => lt_trans hlt (hy c hc))] at this
          cases this
        · exact heq
        · have := h y.1
          rw [Mem.get?_cons, if_neg (by omega), Mem.get?_cons, if_pos rfl,
            get?_eq_none_of_lt xs y.1 (fun c hc => lt_trans hgt (hx c hc))] at this
          cases this
      have hval : x.2 = y.2 := by
        have := h x.1
        simpa [Mem.get?_cons, hkey] using this
      obtain ⟨k, v⟩ := x
      obtain ⟨k', v'⟩ := y
      simp only at hkey hval
      subst hkey; subst hval
      refine congrArg _ (ih ys (List.pairwise_cons.1 hm).2 (List.pairwise_cons.1 hn).2 fun i => ?_)
      by_cases hi : k = i
      · subst hi; rw [get?_eq_none_of_lt xs k hx, get?_eq_none_of_lt ys k hy]
      · simpa [Mem.get?_cons, hi] using h i

/-- The memories of the power-on state are canonical. -/
theorem State.powerOn_mems_wf (p : Config.Params) :
    (State.powerOn p).src.wf ∧ (State.powerOn p).dst.wf ∧ (State.powerOn p).tok.wf ∧ (State.powerOn p).freq.wf ∧
      (State.powerOn p).code.wf ∧ (State.powerOn p).node.wf :=
  ⟨List.Pairwise.nil, List.Pairwise.nil, List.Pairwise.nil, List.Pairwise.nil, List.Pairwise.nil, List.Pairwise.nil⟩

/-! Reads of each memory after a write -/

theorem getD_get?_put {w : Nat} (m : Mem w) (i : Nat) (vs : List (BitVec w)) (j : Nat) (d : BitVec w) :
    ((m.put i vs).get? j).getD d = if i ≤ j ∧ j < i + vs.length then vs.getD (j - i) d else (m.get? j).getD d := by
  rw [Mem.get?_put]
  split <;> simp [List.getD_eq_getElem?_getD]

theorem State.dstAt_putDst (s : State) (k : Nat) (vs : List Byte) (i : Nat) :
    (s.putDst k vs).dstAt i =
      if k ≤ i ∧ i < k + vs.length then vs.getD (i - k) (Config.dstFill s.ramEpoch i) else s.dstAt i :=
  getD_get?_put s.dst k vs i _

theorem State.tokAt_putTok (s : State) (k : Nat) (vs : List Half) (i : Nat) :
    (s.putTok k vs).tokAt i =
      if k ≤ i ∧ i < k + vs.length then vs.getD (i - k) (Config.tokFill s.ramEpoch i) else s.tokAt i :=
  getD_get?_put s.tok k vs i _

theorem State.freqAt_putFreq (s : State) (k : Nat) (vs : List Half) (i : Nat) :
    (s.putFreq k vs).freqAt i =
      if k ≤ i ∧ i < k + vs.length then vs.getD (i - k) (Config.freqFill s.ramEpoch i) else s.freqAt i :=
  getD_get?_put s.freq k vs i _

theorem State.codeAt_putCode (s : State) (k : Nat) (vs : List Word) (i : Nat) :
    (s.putCode k vs).codeAt i =
      if k ≤ i ∧ i < k + vs.length then vs.getD (i - k) (Config.codeFill s.ramEpoch i) else s.codeAt i :=
  getD_get?_put s.code k vs i _

theorem State.nodeAt_putNode (s : State) (k : Nat) (vs : List Word) (i : Nat) :
    (s.putNode k vs).nodeAt i =
      if k ≤ i ∧ i < k + vs.length then vs.getD (i - k) (Config.nodeFill s.ramEpoch i) else s.nodeAt i :=
  getD_get?_put s.node k vs i _

/-! Reads of the other memories -/

@[simp] theorem State.srcAt_putDst (s : State) (k : Nat) (vs : List Byte) (i : Nat) :
    (s.putDst k vs).srcAt i = s.srcAt i := rfl
@[simp] theorem State.tokAt_putDst (s : State) (k : Nat) (vs : List Byte) (i : Nat) :
    (s.putDst k vs).tokAt i = s.tokAt i := rfl
@[simp] theorem State.freqAt_putDst (s : State) (k : Nat) (vs : List Byte) (i : Nat) :
    (s.putDst k vs).freqAt i = s.freqAt i := rfl
@[simp] theorem State.codeAt_putDst (s : State) (k : Nat) (vs : List Byte) (i : Nat) :
    (s.putDst k vs).codeAt i = s.codeAt i := rfl
@[simp] theorem State.nodeAt_putDst (s : State) (k : Nat) (vs : List Byte) (i : Nat) :
    (s.putDst k vs).nodeAt i = s.nodeAt i := rfl
@[simp] theorem State.srcAt_putTok (s : State) (k : Nat) (vs : List Half) (i : Nat) :
    (s.putTok k vs).srcAt i = s.srcAt i := rfl
@[simp] theorem State.dstAt_putTok (s : State) (k : Nat) (vs : List Half) (i : Nat) :
    (s.putTok k vs).dstAt i = s.dstAt i := rfl
@[simp] theorem State.freqAt_putTok (s : State) (k : Nat) (vs : List Half) (i : Nat) :
    (s.putTok k vs).freqAt i = s.freqAt i := rfl
@[simp] theorem State.codeAt_putTok (s : State) (k : Nat) (vs : List Half) (i : Nat) :
    (s.putTok k vs).codeAt i = s.codeAt i := rfl
@[simp] theorem State.nodeAt_putTok (s : State) (k : Nat) (vs : List Half) (i : Nat) :
    (s.putTok k vs).nodeAt i = s.nodeAt i := rfl
@[simp] theorem State.srcAt_putFreq (s : State) (k : Nat) (vs : List Half) (i : Nat) :
    (s.putFreq k vs).srcAt i = s.srcAt i := rfl
@[simp] theorem State.dstAt_putFreq (s : State) (k : Nat) (vs : List Half) (i : Nat) :
    (s.putFreq k vs).dstAt i = s.dstAt i := rfl
@[simp] theorem State.tokAt_putFreq (s : State) (k : Nat) (vs : List Half) (i : Nat) :
    (s.putFreq k vs).tokAt i = s.tokAt i := rfl
@[simp] theorem State.codeAt_putFreq (s : State) (k : Nat) (vs : List Half) (i : Nat) :
    (s.putFreq k vs).codeAt i = s.codeAt i := rfl
@[simp] theorem State.nodeAt_putFreq (s : State) (k : Nat) (vs : List Half) (i : Nat) :
    (s.putFreq k vs).nodeAt i = s.nodeAt i := rfl
@[simp] theorem State.srcAt_putCode (s : State) (k : Nat) (vs : List Word) (i : Nat) :
    (s.putCode k vs).srcAt i = s.srcAt i := rfl
@[simp] theorem State.dstAt_putCode (s : State) (k : Nat) (vs : List Word) (i : Nat) :
    (s.putCode k vs).dstAt i = s.dstAt i := rfl
@[simp] theorem State.tokAt_putCode (s : State) (k : Nat) (vs : List Word) (i : Nat) :
    (s.putCode k vs).tokAt i = s.tokAt i := rfl
@[simp] theorem State.freqAt_putCode (s : State) (k : Nat) (vs : List Word) (i : Nat) :
    (s.putCode k vs).freqAt i = s.freqAt i := rfl
@[simp] theorem State.nodeAt_putCode (s : State) (k : Nat) (vs : List Word) (i : Nat) :
    (s.putCode k vs).nodeAt i = s.nodeAt i := rfl
@[simp] theorem State.srcAt_putNode (s : State) (k : Nat) (vs : List Word) (i : Nat) :
    (s.putNode k vs).srcAt i = s.srcAt i := rfl
@[simp] theorem State.dstAt_putNode (s : State) (k : Nat) (vs : List Word) (i : Nat) :
    (s.putNode k vs).dstAt i = s.dstAt i := rfl
@[simp] theorem State.tokAt_putNode (s : State) (k : Nat) (vs : List Word) (i : Nat) :
    (s.putNode k vs).tokAt i = s.tokAt i := rfl
@[simp] theorem State.freqAt_putNode (s : State) (k : Nat) (vs : List Word) (i : Nat) :
    (s.putNode k vs).freqAt i = s.freqAt i := rfl
@[simp] theorem State.codeAt_putNode (s : State) (k : Nat) (vs : List Word) (i : Nat) :
    (s.putNode k vs).codeAt i = s.codeAt i := rfl

end Sys2Proof.Machine
end

