-- ==== Sys2Proof/Laws/Bits.lean ====
section
/-! SUPPORT. Bit strings and numbers (R8): bits_n and val undo each other, and bits split where the number splits. -/

namespace Sys2Proof.Machine

@[simp] theorem bitsOf_zero (v : Nat) : bitsOf 0 v = [] := rfl

@[simp] theorem bitsOf_length (n v : Nat) : (bitsOf n v).length = n := by
  induction n with
  | zero => rfl
  | succ n ih => simp [bitsOf, ih]

/-- Bit i of bits_n(v), counted from the most significant. -/
theorem bitsOf_getElem? (n v i : Nat) : (bitsOf n v)[i]? = if i < n then some (v.testBit (n - 1 - i)) else none := by
  induction n generalizing i with
  | zero => simp
  | succ n ih =>
    cases i with
    | zero =>
      simp only [bitsOf, List.getElem?_cons_zero, Nat.testBit_eq_decide_div_mod_eq]
      by_cases h : v / 2 ^ n % 2 = 1 <;> simp [h]
    | succ i =>
      rw [bitsOf, List.getElem?_cons_succ, ih]
      by_cases h : i < n
      · rw [if_pos h, if_pos (by omega), show n + 1 - 1 - (i + 1) = n - 1 - i by omega]
      · rw [if_neg h, if_neg (by omega)]

/-- bits_n sees only v mod 2^n. -/
theorem bitsOf_congr (n v v' : Nat) (h : ∀ i, i < n → v.testBit i = v'.testBit i) : bitsOf n v = bitsOf n v' := by
  apply List.ext_getElem?
  intro i
  rw [bitsOf_getElem?, bitsOf_getElem?]
  split
  · rw [h _ (by omega)]
  · rfl

@[simp] theorem bitsOf_mod (n v : Nat) : bitsOf n (v % 2 ^ n) = bitsOf n v :=
  bitsOf_congr n _ _ fun i hi => by simp [Nat.testBit_mod_two_pow, hi]

/-- The bits of a longer number: those of its high part, then those of its low part. -/
theorem bitsOf_add (m n v : Nat) : bitsOf (m + n) v = bitsOf m (v / 2 ^ n) ++ bitsOf n v := by
  apply List.ext_getElem?
  intro i
  rw [List.getElem?_append, bitsOf_getElem?, bitsOf_getElem?, bitsOf_getElem?, bitsOf_length]
  by_cases h : i < m
  · rw [if_pos h, if_pos h, if_pos (by omega), Nat.testBit_div_two_pow]; congr 2; omega
  · rw [if_neg h]
    by_cases h' : i < m + n
    · rw [if_pos h', if_pos (by omega)]; congr 2; omega
    · rw [if_neg h', if_neg (by omega)]

/-- Appending n bits to an accumulator (R162). -/
theorem bitsOf_append (m n a v : Nat) : bitsOf (m + n) (a * 2 ^ n + v % 2 ^ n) = bitsOf m a ++ bitsOf n v := by
  have hpos : 0 < 2 ^ n := Nat.two_pow_pos n
  have hlt : v % 2 ^ n < 2 ^ n := Nat.mod_lt v hpos
  have hdiv : (a * 2 ^ n + v % 2 ^ n) / 2 ^ n = a := by
    rw [Nat.mul_comm, Nat.mul_add_div hpos, Nat.div_eq_of_lt hlt, Nat.add_zero]
  have hmod : (a * 2 ^ n + v % 2 ^ n) % 2 ^ n = v % 2 ^ n := by
    rw [Nat.mul_comm, Nat.mul_add_mod, Nat.mod_mod]
  rw [bitsOf_add, hdiv, ← bitsOf_mod n (a * 2 ^ n + v % 2 ^ n), hmod, bitsOf_mod]

theorem bitsOf_take (n c a : Nat) (h : n ≤ c) : (bitsOf c a).take n = bitsOf n (a / 2 ^ (c - n)) := by
  have hc : c = n + (c - n) := by omega
  conv_lhs => rw [hc, bitsOf_add]
  rw [List.take_left' (bitsOf_length _ _)]

theorem bitsOf_drop (n c a : Nat) (h : n ≤ c) : (bitsOf c a).drop n = bitsOf (c - n) a := by
  have hc : c = n + (c - n) := by omega
  conv_lhs => rw [hc, bitsOf_add]
  rw [List.drop_left' (bitsOf_length _ _)]

theorem valBits_foldl (bs : List Bool) (a : Nat) :
    bs.foldl (fun a b => 2 * a + b.toNat) a = a * 2 ^ bs.length + valBits bs := by
  induction bs generalizing a with
  | nil => simp [valBits]
  | cons b bs ih =>
    have h0 : valBits (b :: bs) = (2 * 0 + b.toNat) * 2 ^ bs.length + valBits bs := ih (2 * 0 + b.toNat)
    rw [List.foldl_cons, ih, h0, List.length_cons]
    ring

theorem valBits_append (bs cs : List Bool) : valBits (bs ++ cs) = valBits bs * 2 ^ cs.length + valBits cs := by
  rw [valBits, List.foldl_append, valBits_foldl]; rfl

/-- val undoes bits_n (R8). -/
theorem valBits_bitsOf (n v : Nat) : valBits (bitsOf n v) = v % 2 ^ n := by
  induction n generalizing v with
  | zero => simp [valBits, Nat.mod_one]
  | succ n ih =>
    rw [show bitsOf (n + 1) v = [v / 2 ^ n % 2 == 1] ++ bitsOf n v from rfl, valBits_append, ih, bitsOf_length,
      Nat.pow_succ, Nat.mod_mul]
    rcases Nat.mod_two_eq_zero_or_one (v / 2 ^ n) with h | h <;> simp [h, valBits]; omega

theorem valBits_lt (bs : List Bool) : valBits bs < 2 ^ bs.length := by
  induction bs with
  | nil => simp [valBits]
  | cons b bs ih =>
    rw [show b :: bs = [b] ++ bs from rfl, valBits_append]
    have : valBits [b] ≤ 1 := by cases b <;> simp [valBits]
    calc valBits [b] * 2 ^ bs.length + valBits bs
        < valBits [b] * 2 ^ bs.length + 2 ^ bs.length := by omega
      _ ≤ 1 * 2 ^ bs.length + 2 ^ bs.length := by gcongr
      _ = 2 ^ ([b] ++ bs).length := by simp [Nat.pow_succ]; ring

/-- bits_n undoes val (R8). -/
theorem bitsOf_valBits (bs : List Bool) : bitsOf bs.length (valBits bs) = bs := by
  induction bs with
  | nil => rfl
  | cons b bs ih =>
    rw [show b :: bs = [b] ++ bs from rfl, valBits_append, List.length_append,
      ← Nat.mod_eq_of_lt (valBits_lt bs), bitsOf_append, ih]
    cases b <;> rfl

@[simp] theorem byteBits_length (v : Byte) : (byteBits v).length = 8 := bitsOf_length 8 _

/-- Byte k of a c-bit accumulator holds its bits 8k to 8k + 7 (R162, R75). -/
theorem byteBits_ofNat (a : Nat) : byteBits (BitVec.ofNat 8 a) = bitsOf 8 a := by
  rw [byteBits, BitVec.toNat_ofNat, bitsOf_mod]

/-- The whole bytes of an accumulator, then its rest, are its bits. -/
theorem topBytes_bits (a c nb : Nat) (h : 8 * nb ≤ c) :
    (topBytes a c nb).flatMap byteBits ++ bitsOf (c - 8 * nb) a = bitsOf c a := by
  induction nb with
  | zero => simp [topBytes]
  | succ nb ih =>
    have hstep : topBytes a c (nb + 1) = topBytes a c nb ++ [BitVec.ofNat 8 (a / 2 ^ (c - 8 * (nb + 1)))] := by
      simp [topBytes, List.range_succ]
    rw [hstep, List.flatMap_append, List.append_assoc, List.flatMap_singleton, byteBits_ofNat, ← ih (by omega)]
    congr 1
    rw [← bitsOf_add]
    congr 1
    omega

@[simp] theorem topBytes_length (a c nb : Nat) : (topBytes a c nb).length = nb := by simp [topBytes]

end Sys2Proof.Machine
end

