-- ==== Sys2Proof/Laws/Ops.lean ====
section
/-! SUPPORT. The shared operations over Res: what a sequence of steps, a changed error and the end of a command can do. -/

namespace Sys2Proof.Machine

variable {α β : Type}

@[simp] theorem Res.bind_ok (a : α) (s : State) (k : α → State → Res β) : (Res.ok a s).bind k = k a s := rfl
@[simp] theorem Res.bind_raised (e : EngineError) (pos sym : Nat) (s : State) (k : α → State → Res β) :
    (Res.raised e pos sym s).bind k = .raised e pos sym s := rfl
@[simp] theorem Res.bind_stuck (f : Fault) (k : α → State → Res β) : (Res.stuck f).bind k = .stuck f := rfl

/-- A sequence succeeds when each of its steps does. -/
theorem Res.bind_eq_ok_iff (r : Res α) (k : α → State → Res β) (b : β) (t : State) :
    r.bind k = .ok b t ↔ ∃ a s, r = .ok a s ∧ k a s = .ok b t := by
  cases r <;> simp

/-- A sequence raises what its first raising step raises. -/
theorem Res.bind_eq_raised_iff (r : Res α) (k : α → State → Res β) (e : EngineError) (pos sym : Nat) (t : State) :
    r.bind k = .raised e pos sym t ↔
      r = .raised e pos sym t ∨ ∃ a s, r = .ok a s ∧ k a s = .raised e pos sym t := by
  cases r <;> simp

theorem Res.bind_eq_stuck_iff (r : Res α) (k : α → State → Res β) (f : Fault) :
    r.bind k = .stuck f ↔ r = .stuck f ∨ ∃ a s, r = .ok a s ∧ k a s = .stuck f := by
  cases r <;> simp

@[simp] theorem Res.raiseAs_ok (a : α) (s : State) (e : EngineError) (pos sym : Nat) :
    (Res.ok a s).raiseAs e pos sym = .ok a s := rfl
@[simp] theorem Res.raiseAs_raised (e' : EngineError) (p q : Nat) (s : State) (e : EngineError) (pos sym : Nat) :
    (Res.raised (α := α) e' p q s).raiseAs e pos sym = .raised e pos sym s := rfl
@[simp] theorem Res.raiseAs_stuck (f : Fault) (e : EngineError) (pos sym : Nat) :
    (Res.stuck (α := α) f).raiseAs e pos sym = .stuck f := rfl

@[simp] theorem Res.atOutLen_ok (a : α) (s : State) : (Res.ok a s).atOutLen = .ok a s := rfl
@[simp] theorem Res.atOutLen_raised (e : EngineError) (pos sym : Nat) (s : State) :
    (Res.raised (α := α) e pos sym s).atOutLen = .raised e s.outLen.toNat sym s := rfl
@[simp] theorem Res.atOutLen_stuck (f : Fault) : (Res.stuck (α := α) f).atOutLen = .stuck f := rfl

theorem Res.atOutLen_eq_ok_iff (r : Res α) (a : α) (s : State) : r.atOutLen = .ok a s ↔ r = .ok a s := by
  cases r <;> simp

@[simp] theorem Res.finish_ok (rs : Results) (s : State) : (Res.ok rs s).finish = .next (s.complete rs) := rfl
@[simp] theorem Res.finish_raised (e : EngineError) (pos sym : Nat) (s : State) :
    (Res.raised e pos sym s).finish = .next (s.raise e pos sym) := rfl
@[simp] theorem Res.finish_stuck (f : Fault) : (Res.stuck f).finish = .fault f := rfl

/-- A command that answers a next state has completed or raised. -/
theorem Res.finish_eq_next_iff (r : Res Results) (t : State) :
    r.finish = .next t ↔ (∃ rs s, r = .ok rs s ∧ s.complete rs = t) ∨
      (∃ e pos sym s, r = .raised e pos sym s ∧ s.raise e pos sym = t) := by
  cases r <;> simp

/-- A command is never refused. -/
theorem Res.finish_ne_refused (r : Res Results) (x : Refusal) : r.finish ≠ .refused x := by
  cases r <;> simp

@[simp] theorem Res.goOn_ok (u : Unit) (s : State) : (Res.ok u s).goOn = .next s := rfl
@[simp] theorem Res.goOn_raised (e : EngineError) (pos sym : Nat) (s : State) :
    (Res.raised (α := Unit) e pos sym s).goOn = .next (s.raise e pos sym) := rfl
@[simp] theorem Res.goOn_stuck (f : Fault) : (Res.stuck (α := Unit) f).goOn = .fault f := rfl

theorem Res.goOn_eq_next_iff (r : Res Unit) (t : State) :
    r.goOn = .next t ↔ r = .ok () t ∨ (∃ e pos sym s, r = .raised e pos sym s ∧ s.raise e pos sym = t) := by
  cases r <;> simp

/-- Every state in which a rule ends, well or with an error, has P. -/
def Res.All (P : State → Prop) (r : Res α) : Prop :=
  (∀ a s, r = .ok a s → P s) ∧ (∀ e pos sym s, r = .raised e pos sym s → P s)

theorem Res.All.of_ok {P : State → Prop} {r : Res α} {a : α} {s : State} (h : r = .ok a s) (hs : P s) : r.All P := by
  subst h
  exact ⟨fun _ _ h => (Res.ok.inj h).2 ▸ hs, fun _ _ _ _ h => (by cases h)⟩

theorem Res.All.of_raised {P : State → Prop} {r : Res α} {e : EngineError} {pos sym : Nat} {s : State}
    (h : r = .raised e pos sym s) (hs : P s) : r.All P := by
  subst h
  exact ⟨fun _ _ h => (by cases h), fun _ _ _ _ h => (Res.raised.inj h).2.2.2 ▸ hs⟩

theorem Res.All.of_stuck {P : State → Prop} {r : Res α} {f : Fault} (h : r = .stuck f) : r.All P := by
  subst h
  exact ⟨fun _ _ h => (by cases h), fun _ _ _ _ h => (by cases h)⟩

/-- A sequence keeps what each of its steps keeps. -/
theorem Res.All.bind {P : State → Prop} {r : Res α} {k : α → State → Res β} (hr : r.All P)
    (hk : ∀ a s, P s → (k a s).All P) : (r.bind k).All P := by
  constructor
  · intro b t h
    obtain ⟨a, s, h1, h2⟩ := (Res.bind_eq_ok_iff r k b t).1 h
    exact (hk a s (hr.1 a s h1)).1 b t h2
  · intro e pos sym t h
    rcases (Res.bind_eq_raised_iff r k e pos sym t).1 h with h1 | ⟨a, s, h1, h2⟩
    · exact hr.2 e pos sym t h1
    · exact (hk a s (hr.1 a s h1)).2 e pos sym t h2

theorem Res.All.mono {P Q : State → Prop} {r : Res α} (hr : r.All P) (h : ∀ s, P s → Q s) : r.All Q :=
  ⟨fun a s hs => h s (hr.1 a s hs), fun e pos sym s hs => h s (hr.2 e pos sym s hs)⟩

/-- The configuration check passes and changes nothing, or raises the first bad register (R211). -/
theorem checkConfig_of_ok (s : State) (h : s.lzConfig.firstBad = none) : checkConfig s = .ok () s := by
  simp [checkConfig, h]

theorem checkConfig_of_bad (s : State) (off v : Nat) (h : s.lzConfig.firstBad = some (off, v)) :
    checkConfig s = .raised .badArgument off v s := by
  simp [checkConfig, h]

/-- A legal configuration meets R33. -/
theorem LzConfig.firstBad_eq_none_iff (c : LzConfig) :
    c.firstBad = none ↔ 1 ≤ c.window ∧ c.window ≤ 65536 ∧ 3 ≤ c.maxMatch ∧ c.maxMatch ≤ 258 ∧ 3 ≤ c.minMatch ∧
      c.minMatch ≤ c.maxMatch ∧ 1 ≤ c.maxChain ∧ c.maxChain ≤ 65536 ∧ 1 ≤ c.lazyDiv ∧ c.lazyDiv ≤ 65536 := by
  unfold LzConfig.firstBad windowOk
  split <;> rename_i h1
  · simp at h1 ⊢; omega
  · split <;> rename_i h2
    · simp at h1 h2 ⊢; omega
    · split <;> rename_i h3
      · simp at h1 h2 h3 ⊢; omega
      · split <;> rename_i h4
        · simp at h1 h2 h3 h4 ⊢; omega
        · split <;> rename_i h5
          · simp at h1 h2 h3 h4 h5 ⊢; omega
          · simp at h1 h2 h3 h4 h5 ⊢; omega

end Sys2Proof.Machine
end

