-- ==== Sys2Proof/Laws/BitStream.lean ====
section
/-! SUPPORT. The bit stream: what each primitive does to the writer's and the reader's bits, and what it leaves alone. -/

namespace Sys2Proof.Machine

/-- writeBits answers ok exactly when its whole bytes fit (R162). -/
theorem writeBits_of_fits (v n : Nat) (s : State)
    (h : s.bw.pos.toNat + (s.bw.cnt.toNat + n) / 8 ≤ s.params.dstSize) :
    ∃ dst bw, writeBits v n s = .ok () { s with dst := dst, bw := bw } := by
  unfold writeBits
  simp only [if_neg (show ¬s.bw.pos.toNat + (s.bw.cnt.toNat + n) / 8 > s.params.dstSize by omega)]
  exact ⟨_, _, rfl⟩

/-- Without room it raises CapacityExceeded(BW_POS, n) and changes nothing (R162). -/
theorem writeBits_of_full (v n : Nat) (s : State)
    (h : s.params.dstSize < s.bw.pos.toNat + (s.bw.cnt.toNat + n) / 8) :
    writeBits v n s = .raised .capacityExceeded s.bw.pos.toNat n s := by
  simp [writeBits, h]

/-- What a writeBits that answers ok leaves: BW_* and the bytes from BW_POS. -/
theorem writeBits_ok (v n : Nat) (s t : State) (h : writeBits v n s = .ok () t) :
    s.bw.pos.toNat + (s.bw.cnt.toNat + n) / 8 ≤ s.params.dstSize ∧
    t = { s.putDst s.bw.pos.toNat (topBytes (s.bw.acc.toNat * 2 ^ n + v % 2 ^ n) (s.bw.cnt.toNat + n)
            ((s.bw.cnt.toNat + n) / 8)) with
          bw := { pos := Word.ofNat (s.bw.pos.toNat + (s.bw.cnt.toNat + n) / 8)
                  acc := Word.ofNat ((s.bw.acc.toNat * 2 ^ n + v % 2 ^ n) % 2 ^ ((s.bw.cnt.toNat + n) % 8))
                  cnt := Word.ofNat ((s.bw.cnt.toNat + n) % 8)
                  total := Word.ofNat (s.bw.total.toNat + n) } } := by
  unfold writeBits at h
  simp only at h
  split at h
  · cases h
  · rename_i hfit
    have hmod : s.bw.cnt.toNat + n - 8 * ((s.bw.cnt.toNat + n) / 8) = (s.bw.cnt.toNat + n) % 8 := by omega
    rw [hmod] at h
    exact ⟨by omega, (Res.ok.inj h).2.symm⟩

/-- Reading DST bytes [a, b) as bits splits at any point between. -/
theorem State.dstBits_append (s : State) (a b c : Nat) (hab : a ≤ b) (hbc : b ≤ c) :
    s.dstBits a c = s.dstBits a b ++ s.dstBits b c := by
  unfold State.dstBits
  rw [show c - a = (b - a) + (c - b) by omega, List.range_add, List.flatMap_append]
  congr 1
  rw [List.flatMap_map]
  exact List.flatMap_congr fun j _ => by rw [show a + (b - a + j) = b + j by omega]

theorem State.srcBits_append (s : State) (a b c : Nat) (hab : a ≤ b) (hbc : b ≤ c) :
    s.srcBits a c = s.srcBits a b ++ s.srcBits b c := by
  unfold State.srcBits
  rw [show c - a = (b - a) + (c - b) by omega, List.range_add, List.flatMap_append]
  congr 1
  rw [List.flatMap_map]
  exact List.flatMap_congr fun j _ => by rw [show a + (b - a + j) = b + j by omega]

theorem State.dstBits_congr (s t : State) (a b : Nat) (h : ∀ j, a ≤ j → j < b → s.dstAt j = t.dstAt j) :
    s.dstBits a b = t.dstBits a b := by
  unfold State.dstBits
  exact List.flatMap_congr fun j hj => by rw [h (a + j) (by omega) (by have := List.mem_range.1 hj; omega)]

theorem State.srcBits_congr (s t : State) (a b : Nat) (h : ∀ j, a ≤ j → j < b → s.srcAt j = t.srcAt j) :
    s.srcBits a b = t.srcBits a b := by
  unfold State.srcBits
  exact List.flatMap_congr fun j hj => by rw [h (a + j) (by omega) (by have := List.mem_range.1 hj; omega)]

@[simp] theorem flatMap_byteBits_length (l : List Byte) : (l.flatMap byteBits).length = 8 * l.length := by
  induction l with
  | nil => rfl
  | cons v l ih => rw [List.flatMap_cons, List.length_append, ih, byteBits_length, List.length_cons]; omega

theorem State.srcBits_eq (s : State) (a b : Nat) :
    s.srcBits a b = ((List.range (b - a)).map (fun j => s.srcAt (a + j))).flatMap byteBits := by
  rw [List.flatMap_map]; rfl

theorem State.dstBits_eq (s : State) (a b : Nat) :
    s.dstBits a b = ((List.range (b - a)).map (fun j => s.dstAt (a + j))).flatMap byteBits := by
  rw [List.flatMap_map]; rfl

@[simp] theorem State.srcBits_length (s : State) (a b : Nat) : (s.srcBits a b).length = 8 * (b - a) := by
  rw [State.srcBits_eq, flatMap_byteBits_length, List.length_map, List.length_range]

@[simp] theorem State.dstBits_length (s : State) (a b : Nat) : (s.dstBits a b).length = 8 * (b - a) := by
  rw [State.dstBits_eq, flatMap_byteBits_length, List.length_map, List.length_range]

/-- The bytes a put wrote, read as bits. -/
theorem State.dstBits_putDst (s : State) (k : Nat) (vs : List Byte) :
    (s.putDst k vs).dstBits k (k + vs.length) = vs.flatMap byteBits := by
  rw [State.dstBits_eq, Nat.add_sub_cancel_left]
  congr 1
  apply List.ext_getElem
  · simp
  · intro i h1 h2
    have hi : i < vs.length := h2
    simp [State.dstAt_putDst, hi]

/-- writeBits appends bits_n(v) to the writer's stream, keeps the writer's invariant, and counts (R160, R162). -/
theorem writeBits_spec (v n : Nat) (s t : State) (hd : s.params.dstSize ≤ 2 ^ 40)
    (h : writeBits v n s = .ok () t) :
    (∃ dst bw, t = { s with dst := dst, bw := bw }) ∧
    t.bw.pos.toNat = s.bw.pos.toNat + (s.bw.cnt.toNat + n) / 8 ∧ t.bw.cnt.toNat = (s.bw.cnt.toNat + n) % 8 ∧
    t.bw.total = s.bw.total + Word.ofNat n ∧ t.writerInv ∧
    (∀ j, j < s.bw.pos.toNat ∨ t.bw.pos.toNat ≤ j → t.dstAt j = s.dstAt j) ∧
    (∀ o, o ≤ s.bw.pos.toNat → t.writerBits o = s.writerBits o ++ bitsOf n v) := by
  obtain ⟨hfit, rfl⟩ := writeBits_ok v n s t h
  have hp : (Word.ofNat (s.bw.pos.toNat + (s.bw.cnt.toNat + n) / 8)).toNat =
      s.bw.pos.toNat + (s.bw.cnt.toNat + n) / 8 := Word.toNat_ofNat_of_lt (by omega)
  have hc : (Word.ofNat ((s.bw.cnt.toNat + n) % 8)).toNat = (s.bw.cnt.toNat + n) % 8 :=
    Word.toNat_ofNat_of_lt (by omega)
  have hr : (s.bw.cnt.toNat + n) % 8 ≤ 7 := by omega
  have hlt : (s.bw.acc.toNat * 2 ^ n + v % 2 ^ n) % 2 ^ ((s.bw.cnt.toNat + n) % 8) <
      2 ^ ((s.bw.cnt.toNat + n) % 8) := Nat.mod_lt _ (Nat.two_pow_pos _)
  have h64 : 2 ^ ((s.bw.cnt.toNat + n) % 8) ≤ 2 ^ 7 := Nat.pow_le_pow_right (by decide) hr
  have ha : (Word.ofNat ((s.bw.acc.toNat * 2 ^ n + v % 2 ^ n) % 2 ^ ((s.bw.cnt.toNat + n) % 8))).toNat =
      (s.bw.acc.toNat * 2 ^ n + v % 2 ^ n) % 2 ^ ((s.bw.cnt.toNat + n) % 8) :=
    Word.toNat_ofNat_of_lt (by omega)
  refine ⟨⟨_, _, rfl⟩, hp, hc, ?_, ⟨?_, ?_, ?_⟩, ?_, ?_⟩
  · show Word.ofNat (s.bw.total.toNat + n) = _
    rw [Word.ofNat, BitVec.ofNat_add, BitVec.ofNat_toNat, BitVec.setWidth_eq]
  · show (Word.ofNat _).toNat ≤ 7
    rw [hc]; exact hr
  · show (Word.ofNat _).toNat < 2 ^ (Word.ofNat _).toNat
    rw [hc, ha]; exact hlt
  · show (Word.ofNat _).toNat ≤ _
    rw [hp]; exact hfit
  · intro j hj
    change j < _ ∨ (Word.ofNat _).toNat ≤ j at hj
    rw [hp] at hj
    show (s.putDst _ _).dstAt j = _
    rw [State.dstAt_putDst, if_neg]
    simp only [topBytes_length]; omega
  · intro o ho
    unfold State.writerBits
    show State.dstBits (s.putDst _ _) o (Word.ofNat _).toNat ++ bitsOf (Word.ofNat _).toNat (Word.ofNat _).toNat = _
    rw [hp, hc, ha, bitsOf_mod, State.dstBits_append _ o s.bw.pos.toNat _ ho (by omega)]
    have hbytes := State.dstBits_putDst s s.bw.pos.toNat (topBytes (s.bw.acc.toNat * 2 ^ n + v % 2 ^ n)
      (s.bw.cnt.toNat + n) ((s.bw.cnt.toNat + n) / 8))
    rw [topBytes_length] at hbytes
    have hold : State.dstBits (s.putDst s.bw.pos.toNat (topBytes (s.bw.acc.toNat * 2 ^ n + v % 2 ^ n)
        (s.bw.cnt.toNat + n) ((s.bw.cnt.toNat + n) / 8))) o s.bw.pos.toNat = s.dstBits o s.bw.pos.toNat := by
      refine State.dstBits_congr _ _ _ _ fun j _ hj => ?_
      rw [State.dstAt_putDst, if_neg (by omega)]
    have hsplit := topBytes_bits (s.bw.acc.toNat * 2 ^ n + v % 2 ^ n) (s.bw.cnt.toNat + n)
      ((s.bw.cnt.toNat + n) / 8) (by omega)
    rw [show s.bw.cnt.toNat + n - 8 * ((s.bw.cnt.toNat + n) / 8) = (s.bw.cnt.toNat + n) % 8 by omega] at hsplit
    rw [hold, hbytes, List.append_assoc, List.append_assoc, hsplit, bitsOf_append]

/-- A writeBits that does not answer ok raises CapacityExceeded and changes nothing. -/
theorem writeBits_cases (v n : Nat) (s : State) :
    (∃ t, writeBits v n s = .ok () t) ∨
      (s.params.dstSize < s.bw.pos.toNat + (s.bw.cnt.toNat + n) / 8 ∧
        writeBits v n s = .raised .capacityExceeded s.bw.pos.toNat n s) := by
  rcases le_or_gt (s.bw.pos.toNat + (s.bw.cnt.toNat + n) / 8) s.params.dstSize with h | h
  · obtain ⟨dst, bw, h⟩ := writeBits_of_fits v n s h
    exact .inl ⟨_, h⟩
  · exact .inr ⟨h, writeBits_of_full v n s h⟩

/-- Writing a sequence ends ok or raises CapacityExceeded at its BW_POS; it changes DST and BW_* only. -/
theorem writeAll_cases (ws : List (Nat × Nat)) (s : State) :
    ∃ dst bw, writeAll ws s = .ok () { s with dst := dst, bw := bw } ∨
      ∃ n, writeAll ws s = .raised .capacityExceeded bw.pos.toNat n { s with dst := dst, bw := bw } := by
  induction ws generalizing s with
  | nil => exact ⟨s.dst, s.bw, .inl rfl⟩
  | cons x ws ih =>
    obtain ⟨v, n⟩ := x
    rcases writeBits_cases v n s with ⟨t, h⟩ | ⟨-, h⟩
    · obtain ⟨-, ht⟩ := writeBits_ok v n s t h
      obtain ⟨dst, bw, h' | ⟨m, h'⟩⟩ := ih t
      · exact ⟨dst, bw, .inl (by rw [writeAll, h, Res.bind_ok, h', ht]; rfl)⟩
      · exact ⟨dst, bw, .inr ⟨m, by rw [writeAll, h, Res.bind_ok, h', ht]; rfl⟩⟩
    · exact ⟨s.dst, s.bw, .inr ⟨n, by rw [writeAll, h]; rfl⟩⟩

/-- How many bits the reader has left (R168). -/
theorem State.readerBits_length (s : State) : s.readerBits.length = s.bitsLeft := by
  simp [State.readerBits, State.bitsLeft]

/-- The loop of readBits gathers the bytes' bits below those already cached (R168). -/
theorem loadBytes_bits (s : State) (k p a c : Nat) :
    bitsOf (c + 8 * k) (loadBytes s k p a) = bitsOf c a ++ s.srcBits p (p + k) := by
  induction k generalizing p a c with
  | zero => simp [loadBytes, State.srcBits]
  | succ k ih =>
    have hstep : bitsOf (c + 8) (a * 256 + (s.srcAt p).toNat) = bitsOf c a ++ byteBits (s.srcAt p) := by
      have := bitsOf_append c 8 a (s.srcAt p).toNat
      rwa [Nat.mod_eq_of_lt (by simpa using (s.srcAt p).isLt), show (2 : Nat) ^ 8 = 256 from rfl] at this
    rw [loadBytes, show c + 8 * (k + 1) = (c + 8) + 8 * k by omega, ih, hstep, List.append_assoc]
    congr 1
    rw [State.srcBits_append s p (p + 1) (p + (k + 1)) (by omega) (by omega), show p + (k + 1) = p + 1 + k by omega]
    congr 1
    simp [State.srcBits, List.range_succ]

/-- readBits takes the first n of the reader's bits, most significant first, and leaves the rest (R168). -/
theorem readBits_spec (n : Nat) (s : State) (hsrc : s.params.srcSize ≤ 2 ^ 32) (hi : s.readerInv)
    (hn : n ≤ s.readerBits.length) :
    ∃ br, readBits n s = .ok (valBits (s.readerBits.take n)) { s with br := br } ∧ br.stop = s.br.stop ∧
      ({ s with br := br } : State).readerInv ∧ ({ s with br := br } : State).readerBits = s.readerBits.drop n := by
  obtain ⟨hc7, hacc, hpe, hes⟩ := hi
  rw [State.readerBits_length, State.bitsLeft] at hn
  have hk : bytesToLoad n s.br.cnt.toNat ≤ s.br.stop.toNat - s.br.pos.toNat := by unfold bytesToLoad; omega
  have hk2 : n ≤ s.br.cnt.toNat + 8 * bytesToLoad n s.br.cnt.toNat := by unfold bytesToLoad; omega
  have hk3 : s.br.cnt.toNat + 8 * bytesToLoad n s.br.cnt.toNat - n ≤ 7 := by unfold bytesToLoad; omega
  have hall : s.readerBits =
      bitsOf (s.br.cnt.toNat + 8 * bytesToLoad n s.br.cnt.toNat)
        (loadBytes s (bytesToLoad n s.br.cnt.toNat) s.br.pos.toNat s.br.acc.toNat) ++
      s.srcBits (s.br.pos.toNat + bytesToLoad n s.br.cnt.toNat) s.br.stop.toNat := by
    rw [loadBytes_bits, List.append_assoc, State.readerBits,
      State.srcBits_append s s.br.pos.toNat (s.br.pos.toNat + bytesToLoad n s.br.cnt.toNat) s.br.stop.toNat
        (by omega) (by omega)]
  unfold readBits
  rw [if_neg (by unfold State.bitsLeft; omega)]
  dsimp only
  generalize bytesToLoad n s.br.cnt.toNat = k at *
  generalize loadBytes s k s.br.pos.toNat s.br.acc.toNat = a at *
  have hm : a % 2 ^ (s.br.cnt.toNat + 8 * k - n) < 2 ^ (s.br.cnt.toNat + 8 * k - n) :=
    Nat.mod_lt _ (Nat.two_pow_pos _)
  have h7 : 2 ^ (s.br.cnt.toNat + 8 * k - n) ≤ 2 ^ 7 := Nat.pow_le_pow_right (by decide) hk3
  have e1 : (Word.ofNat (s.br.pos.toNat + k)).toNat = s.br.pos.toNat + k := Word.toNat_ofNat_of_lt (by omega)
  have e2 : (Word.ofNat (s.br.cnt.toNat + 8 * k - n)).toNat = s.br.cnt.toNat + 8 * k - n :=
    Word.toNat_ofNat_of_lt (by omega)
  have e3 : (Word.ofNat (a % 2 ^ (s.br.cnt.toNat + 8 * k - n))).toNat = a % 2 ^ (s.br.cnt.toNat + 8 * k - n) :=
    Word.toNat_ofNat_of_lt (by omega)
  have hv : valBits (s.readerBits.take n) = a / 2 ^ (s.br.cnt.toNat + 8 * k - n) % 2 ^ n := by
    rw [hall, List.take_append_of_le_length (by simpa using hk2), bitsOf_take _ _ _ hk2, valBits_bitsOf]
  have hd : s.readerBits.drop n = bitsOf (s.br.cnt.toNat + 8 * k - n) a ++
      s.srcBits (s.br.pos.toNat + k) s.br.stop.toNat := by
    rw [hall, List.drop_append_of_le_length (by simpa using hk2), bitsOf_drop _ _ _ hk2]
  refine ⟨{ pos := Word.ofNat (s.br.pos.toNat + k), stop := s.br.stop,
            acc := Word.ofNat (a % 2 ^ (s.br.cnt.toNat + 8 * k - n)), cnt := Word.ofNat (s.br.cnt.toNat + 8 * k - n) },
    by rw [hv], rfl, ⟨?_, ?_, ?_, hes⟩, ?_⟩
  · show (Word.ofNat _).toNat ≤ 7
    rw [e2]; exact hk3
  · show (Word.ofNat _).toNat < 2 ^ (Word.ofNat _).toNat
    rw [e2, e3]; exact hm
  · show (Word.ofNat _).toNat ≤ s.br.stop.toNat
    rw [e1]; omega
  · rw [hd]
    show bitsOf (Word.ofNat _).toNat (Word.ofNat _).toNat ++ s.srcBits (Word.ofNat _).toNat s.br.stop.toNat = _
    rw [e1, e2, e3, bitsOf_mod]

/-- With too few bits left readBits raises EndOfStream(BR_POS, n) and changes nothing (R168). -/
theorem readBits_of_short (n : Nat) (s : State) (h : s.readerBits.length < n) :
    readBits n s = .raised .endOfStream s.br.pos.toNat n s := by
  rw [State.readerBits_length] at h
  simp [readBits, h]

/-- Whatever readBits does, it changes BR_* only. -/
theorem readBits_cases (n : Nat) (s : State) :
    (∃ v br, readBits n s = .ok v { s with br := br }) ∨ readBits n s = .raised .endOfStream s.br.pos.toNat n s := by
  unfold readBits
  split
  · exact .inr rfl
  · exact .inl ⟨_, _, rfl⟩

/-- BW_INIT starts an empty stream at o (R161). -/
theorem bwInit_of_le (o : Nat) (s : State) (h : o ≤ s.params.dstSize) :
    bwInit o s = .ok () { s with bw := { pos := Word.ofNat o, acc := 0, cnt := 0, total := 0 } } := by
  simp [bwInit, h]

/-- BR_INIT starts reading SRC[a..e) (R167). -/
theorem brInit_of_le (a e : Nat) (s : State) (h : a ≤ e) (he : e ≤ s.params.srcSize) :
    brInit a e s = .ok () { s with br := { pos := Word.ofNat a, stop := Word.ofNat e, acc := 0, cnt := 0 } } := by
  simp [brInit, h, he]

/-- flush changes DST and BW_* only, or raises CapacityExceeded(BW_POS, 0) and changes nothing (R164). -/
theorem flush_cases (s : State) :
    (∃ dst bw, flush s = .ok () { s with dst := dst, bw := bw }) ∨
      flush s = .raised .capacityExceeded s.bw.pos.toNat 0 s := by
  unfold flush
  simp only
  split
  · split
    · exact .inr rfl
    · exact .inl ⟨_, _, rfl⟩
  · exact .inl ⟨s.dst, _, rfl⟩

end Sys2Proof.Machine
end

