-- ==== Sys2Proof/Laws/Commands.lean ====
section
/-! SUPPORT. What each rule of the matcher, the Huffman unit and the container can do: how it ends and which fields of State
it may change. -/

namespace Sys2Proof.Machine

/-- LZ_MATCH raises before it writes, or writes its tokens and TOK_COUNT (R213). -/
theorem lzMatch_cases (n : Nat) (s : State) :
    (s.params.srcSize < n ∧ lzMatch n s = .raised .badArgument 0 n s) ∨
    (n ≤ s.params.srcSize ∧ ∃ off v, s.lzConfig.firstBad = some (off, v) ∧
      lzMatch n s = .raised .badArgument off v s) ∨
    (n ≤ s.params.srcSize ∧ s.lzConfig.firstBad = none ∧
      lzMatch n s = .ok (lzTokens s.lzConfig s.input n).length
        { s.putTok 0 ((lzTokens s.lzConfig s.input n).map Token.toWord) with
          tokCount := Word.ofNat (lzTokens s.lzConfig s.input n).length }) := by
  rcases lt_or_ge s.params.srcSize n with h | h
  · exact .inl ⟨h, by simp [lzMatch, h]⟩
  · have hn : ¬n > s.params.srcSize := by omega
    cases hb : s.lzConfig.firstBad with
    | some x =>
      obtain ⟨off, v⟩ := x
      exact .inr (.inl ⟨h, off, v, rfl, by rw [lzMatch, if_neg hn, checkConfig_of_bad s off v hb]; rfl⟩)
    | none => exact .inr (.inr ⟨h, rfl, by rw [lzMatch, if_neg hn, checkConfig_of_ok s hb]; rfl⟩)

/-- FREQ_COUNT writes FREQ, or raises and writes nothing (R240). -/
theorem freqCount_cases (s : State) :
    (∃ f, countSymbols (s.tokens.map Token.sym) 0 (List.replicate Config.symbols 0) = .ok f ∧
      freqCount s = .ok (f.countP (fun k => k > 0)) (s.putFreq 0 (f.map (BitVec.ofNat 32)))) ∨
    (∃ e i sym, countSymbols (s.tokens.map Token.sym) 0 (List.replicate Config.symbols 0) = .error (e, i, sym) ∧
      freqCount s = .raised e i sym s) := by
  unfold freqCount
  cases h : countSymbols (s.tokens.map Token.sym) 0 (List.replicate Config.symbols 0) with
  | ok f => exact .inl ⟨f, rfl, rfl⟩
  | error x => exact .inr ⟨x.1, x.2.1, x.2.2, rfl, rfl⟩

/-- HUFF_BUILD invalidates the tree and raises, or writes NODE and a valid tree (R242). -/
theorem huffBuild_cases (s : State) :
    (∃ node root nodes k, huffBuild s = .ok (root, nodes, k) { s with
      node := node, tree := { root := Word.ofNat root, nodes := Word.ofNat nodes, valid := true } }) ∨
    (∃ e sym, huffBuild s = .raised e 0 sym { s with tree := { s.tree with valid := false } }) := by
  unfold huffBuild
  simp only
  split
  · exact .inr ⟨_, _, rfl⟩
  · split
    · exact .inr ⟨_, _, rfl⟩
    · exact .inl ⟨_, _, _, _, rfl⟩

/-- A rule on the tree: NoTree, the stuck walk, or the rule (R244, R246; log 10). -/
theorem withTree_of_tree {α : Type} (s : State) (k : CodeTree → Res α) (t : CodeTree) (hv : s.tree.valid = true)
    (ht : s.tree? = some t) : withTree s k = k t := by
  simp [withTree, hv, ht]

theorem withTree_of_invalid {α : Type} (s : State) (k : CodeTree → Res α) (hv : s.tree.valid = false) :
    withTree s k = .raised .noTree 0 0 s := by
  simp [withTree, hv]

theorem withTree_of_endless {α : Type} (s : State) (k : CodeTree → Res α) (hv : s.tree.valid = true)
    (ht : s.tree? = none) : withTree s k = .stuck (.endlessTreeWalk s.tree.root.toNat) := by
  simp [withTree, hv, ht]

/-- HUFF_CODES writes CODE, or raises and writes nothing (R244). -/
theorem huffCodes_cases (s : State) :
    (∃ r code, huffCodes s = .ok r { s with code := code }) ∨ (∃ e pos sym, huffCodes s = .raised e pos sym s) ∨
      (s.tree.valid = true ∧ s.tree? = none ∧ huffCodes s = .stuck (.endlessTreeWalk s.tree.root.toNat)) := by
  unfold huffCodes
  cases hv : s.tree.valid with
  | false => exact .inr (.inl ⟨_, _, _, withTree_of_invalid s _ hv⟩)
  | true =>
    cases ht : s.tree? with
    | none => exact .inr (.inr ⟨rfl, rfl, withTree_of_endless s _ hv ht⟩)
    | some t =>
      rw [withTree_of_tree s _ t hv ht]
      split
      · exact .inr (.inl ⟨_, _, _, rfl⟩)
      · exact .inl ⟨_, _, rfl⟩

/-- HUFF_SERIALIZE changes DST and BW_* only (R246). -/
theorem huffSerialize_cases (s : State) :
    (∃ k dst bw, huffSerialize s = .ok k { s with dst := dst, bw := bw }) ∨
    (∃ e pos sym dst bw, huffSerialize s = .raised e pos sym { s with dst := dst, bw := bw }) ∨
      (s.tree.valid = true ∧ s.tree? = none ∧ huffSerialize s = .stuck (.endlessTreeWalk s.tree.root.toNat)) := by
  unfold huffSerialize
  cases hv : s.tree.valid with
  | false => exact .inr (.inl ⟨_, _, _, s.dst, s.bw, withTree_of_invalid s _ hv⟩)
  | true =>
    cases ht : s.tree? with
    | none => exact .inr (.inr ⟨rfl, rfl, withTree_of_endless s _ hv ht⟩)
    | some t =>
      rw [withTree_of_tree s _ t hv ht]
      obtain ⟨dst, bw, h | ⟨n, h⟩⟩ := writeAll_cases t.serialWrites s
      · exact .inl ⟨_, dst, bw, by rw [h]; rfl⟩
      · exact .inr (.inl ⟨_, _, _, dst, bw, by rw [h]; rfl⟩)

/-- HUFF_ENCODE's loop changes DST and BW_* only (R248). -/
theorem encodeTokens_cases (toks : List Token) (i k : Nat) (s : State) :
    (∃ r dst bw, encodeTokens toks i k s = .ok r { s with dst := dst, bw := bw }) ∨
    (∃ e pos sym dst bw, encodeTokens toks i k s = .raised e pos sym { s with dst := dst, bw := bw }) := by
  induction toks generalizing i k s with
  | nil => exact .inl ⟨k, s.dst, s.bw, rfl⟩
  | cons tok toks ih =>
    unfold encodeTokens
    simp only
    split
    · exact .inr ⟨_, _, _, s.dst, s.bw, rfl⟩
    · rcases writeBits_cases (CodeEntry.ofWord (s.codeAt tok.sym)).bits (CodeEntry.ofWord (s.codeAt tok.sym)).len s
        with ⟨t, h⟩ | ⟨-, h⟩
      · obtain ⟨-, ht⟩ := writeBits_ok _ _ s t h
        rw [h, Res.bind_ok]
        rcases writeBits_cases tok.xval tok.xbits t with ⟨u, h2⟩ | ⟨-, h2⟩
        · obtain ⟨-, hu⟩ := writeBits_ok _ _ t u h2
          rw [h2, Res.bind_ok]
          rcases ih (i + 1) (k + (CodeEntry.ofWord (s.codeAt tok.sym)).len + tok.xbits) u with
            ⟨r, dst, bw, h3⟩ | ⟨e, pos, sym, dst, bw, h3⟩
          · exact .inl ⟨r, dst, bw, by rw [h3, hu, ht]; rfl⟩
          · exact .inr ⟨e, pos, sym, dst, bw, by rw [h3, hu, ht]; rfl⟩
        · exact .inr ⟨_, _, _, t.dst, t.bw, by rw [h2, ht]; rfl⟩
      · exact .inr ⟨_, _, _, s.dst, s.bw, by rw [h]; rfl⟩

/-- des() changes BR_* and NODE only, and raises nothing but MalformedTree at its BR_POS (R271). -/
theorem des_cases (depth cnt : Nat) (s : State) :
    (∃ b br node, des depth cnt s = .ok b { s with br := br, node := node }) ∨
    (∃ sym br node, des depth cnt s = .raised .malformedTree br.pos.toNat sym { s with br := br, node := node }) := by
  induction depth generalizing cnt s with
  | zero => exact .inr ⟨cnt, s.br, s.node, rfl⟩
  | succ depth ih =>
    unfold des
    split
    · exact .inr ⟨cnt, s.br, s.node, rfl⟩
    · rcases readBits_cases 1 s with ⟨tag, br, h⟩ | h
      · rw [h, Res.raiseAs_ok, Res.bind_ok]
        split
        · rcases readBits_cases Config.leafBits { s with br := br } with ⟨sym, br2, h2⟩ | h2
          · exact .inl ⟨_, br2, _, by rw [h2]; rfl⟩
          · exact .inr ⟨_, br, s.node, by rw [h2]; rfl⟩
        · rcases ih (cnt + 1) { s with br := br } with ⟨l, br2, node2, h2⟩ | ⟨sym, br2, node2, h2⟩
          · rw [h2, Res.bind_ok]
            rcases ih l.cnt { s with br := br2, node := node2 } with ⟨r, br3, node3, h3⟩ | ⟨sym, br3, node3, h3⟩
            · exact .inl ⟨_, br3, _, by rw [h3]; rfl⟩
            · exact .inr ⟨sym, br3, node3, by rw [h3]; rfl⟩
          · exact .inr ⟨sym, br2, node2, by rw [h2]; rfl⟩
      · exact .inr ⟨_, s.br, s.node, by rw [h]; rfl⟩

/-- HUFF_DESERIALIZE changes BR_*, NODE and TREE_* only; on an error TREE_VALID is 0 (R271). -/
theorem huffDeserialize_cases (s : State) :
    (∃ k br node, huffDeserialize s = .ok k { s with
      br := br, node := node, tree := { root := 0, nodes := Word.ofNat k, valid := true } }) ∨
    (∃ sym br node, huffDeserialize s = .raised .malformedTree br.pos.toNat sym { s with
      br := br, node := node, tree := { s.tree with valid := false } }) := by
  unfold huffDeserialize
  simp only
  rcases des_cases (s.params.nodeCap + 1) 0 { s with tree := { s.tree with valid := false } } with
    ⟨b, br, node, h⟩ | ⟨sym, br, node, h⟩
  · exact .inl ⟨b.cnt, br, node, by rw [h]; rfl⟩
  · exact .inr ⟨sym, br, node, by rw [h]; rfl⟩

/-- The descent of decodeSym changes BR_* only, and raises nothing but MalformedTree at its BR_POS (R273). -/
theorem descend_cases (fuel : Nat) (x : NodeEntry) (d : Nat) (s : State) :
    (∃ r br, descend fuel x d s = .ok r { s with br := br }) ∨
    (∃ sym br, descend fuel x d s = .raised .malformedTree br.pos.toNat sym { s with br := br }) := by
  induction fuel generalizing x d s with
  | zero => exact .inr ⟨d, s.br, rfl⟩
  | succ fuel ih =>
    cases x with
    | leaf sym => exact .inl ⟨(sym, d), s.br, rfl⟩
    | internal sym l r =>
      unfold descend
      rcases readBits_cases 1 s with ⟨b, br, h⟩ | h
      · rw [h, Res.raiseAs_ok, Res.bind_ok]
        rcases ih (NodeEntry.ofWord (State.nodeAt { s with br := br } (if b = 0 then l else r))) (d + 1)
          { s with br := br } with ⟨res, br2, h2⟩ | ⟨sym2, br2, h2⟩
        · exact .inl ⟨res, br2, by rw [h2]⟩
        · exact .inr ⟨sym2, br2, by rw [h2]⟩
      · exact .inr ⟨d, s.br, by rw [h]; rfl⟩

theorem decodeSym_cases (s : State) :
    (∃ r br, decodeSym s = .ok r { s with br := br }) ∨
    (∃ sym br, decodeSym s = .raised .malformedTree br.pos.toNat sym { s with br := br }) :=
  descend_cases _ _ _ _

/-- The copy loop changes DST and OUT_LEN only (R298). -/
theorem copyBytes_frame (dist len : Nat) (s : State) :
    ∃ dst outLen, copyBytes dist len s = { s with dst := dst, outLen := outLen } := by
  induction len generalizing s with
  | zero => exact ⟨s.dst, s.outLen, rfl⟩
  | succ len ih =>
    obtain ⟨dst, outLen, h⟩ := ih (s.appendByte (s.dstAt (s.outLen.toNat - dist)))
    exact ⟨dst, outLen, by rw [copyBytes, h]; rfl⟩

/-- The end of a back-reference: two checks that change nothing, then DST, OUT_LEN and the waiting length (R298). -/
theorem copyBack_cases (len dist : Nat) (s : State) :
    (s.outLen.toNat < dist ∧ copyBack len dist s = .raised .invalidBackReference s.outLen.toNat dist s) ∨
    (dist ≤ s.outLen.toNat ∧ s.dec.len < s.outLen.toNat + len ∧
      copyBack len dist s = .raised .lengthMismatch s.outLen.toNat len s) ∨
    (dist ≤ s.outLen.toNat ∧ s.outLen.toNat + len ≤ s.dec.len ∧
      ∃ dst outLen, copyBack len dist s = .ok () { s with
        dst := dst, outLen := outLen, dec := { s.dec with pendingLen := none } }) := by
  unfold copyBack
  simp only
  rcases lt_or_ge s.outLen.toNat dist with h | h
  · exact .inl ⟨h, by rw [if_pos h]⟩
  · rw [if_neg (by omega)]
    rcases lt_or_ge s.dec.len (s.outLen.toNat + len) with h2 | h2
    · exact .inr (.inl ⟨h, h2, by rw [if_pos h2]⟩)
    · obtain ⟨dst, outLen, hc⟩ := copyBytes_frame dist len s
      exact .inr (.inr ⟨h, h2, dst, outLen, by rw [if_neg (by omega), hc]⟩)

/-- What COMPRESS keeps: all but TOK, TOK_COUNT, FREQ, NODE, TREE_*, CODE, DST and BW_* (R290, R355). -/
def State.keptByCompress (s : State) :=
  (s.cmd, s.arg, s.res, s.status, s.errPos, s.errSym, s.cfg, s.br, s.outLen, s.src, s.phase, s.latchCmd, s.latchArg,
    s.dec, s.params, s.pending, s.portData, s.draws, s.ramEpoch)

/-- `t` is `s` but for what COMPRESS may change. -/
def State.SameButCompress (s t : State) : Prop := t.keptByCompress = s.keptByCompress

theorem State.SameButCompress.trans {s t u : State} (h1 : s.SameButCompress t) (h2 : t.SameButCompress u) :
    s.SameButCompress u := Eq.trans h2 h1

theorem State.sameButCompress_putDst (s : State) (i : Nat) (vs : List Byte) : s.SameButCompress (s.putDst i vs) := rfl

theorem lzMatch_frame (n : Nat) (s : State) : (lzMatch n s).All s.SameButCompress := by
  rcases lzMatch_cases n s with ⟨-, h⟩ | ⟨-, off, v, -, h⟩ | ⟨-, -, h⟩
  · exact .of_raised h rfl
  · exact .of_raised h rfl
  · exact .of_ok h rfl

theorem freqCount_frame (s : State) : (freqCount s).All s.SameButCompress := by
  rcases freqCount_cases s with ⟨f, -, h⟩ | ⟨e, i, sym, -, h⟩
  · exact .of_ok h rfl
  · exact .of_raised h rfl

theorem huffBuild_frame (s : State) : (huffBuild s).All s.SameButCompress := by
  rcases huffBuild_cases s with ⟨node, root, nodes, k, h⟩ | ⟨e, sym, h⟩
  · exact .of_ok h rfl
  · exact .of_raised h rfl

theorem huffCodes_frame (s : State) : (huffCodes s).All s.SameButCompress := by
  rcases huffCodes_cases s with ⟨r, code, h⟩ | ⟨e, pos, sym, h⟩ | ⟨-, -, h⟩
  · exact .of_ok h rfl
  · exact .of_raised h rfl
  · exact .of_stuck h

theorem huffSerialize_frame (s : State) : (huffSerialize s).All s.SameButCompress := by
  rcases huffSerialize_cases s with ⟨k, dst, bw, h⟩ | ⟨e, pos, sym, dst, bw, h⟩ | ⟨-, -, h⟩
  · exact .of_ok h rfl
  · exact .of_raised h rfl
  · exact .of_stuck h

theorem huffEncode_frame (s : State) : (huffEncode s).All s.SameButCompress := by
  rcases encodeTokens_cases s.tokens 0 0 s with ⟨r, dst, bw, h⟩ | ⟨e, pos, sym, dst, bw, h⟩
  · exact .of_ok h rfl
  · exact .of_raised h rfl

theorem flush_frame (s : State) : (flush s).All s.SameButCompress := by
  rcases flush_cases s with ⟨dst, bw, h⟩ | h
  · exact .of_ok h rfl
  · exact .of_raised h rfl

theorem bwInit_frame (o : Nat) (s : State) : (bwInit o s).All s.SameButCompress := by
  unfold bwInit
  split
  · exact .of_raised rfl rfl
  · exact .of_ok rfl rfl

theorem checkConfig_frame (s : State) : (checkConfig s).All s.SameButCompress := by
  cases h : s.lzConfig.firstBad with
  | none => exact .of_ok (checkConfig_of_ok s h) rfl
  | some x => exact .of_raised (checkConfig_of_bad s x.1 x.2 h) rfl

/-- However COMPRESS ends, it changes only TOK, TOK_COUNT, FREQ, NODE, TREE_*, CODE, DST and BW_* (R290, R355). -/
theorem compress_frame (n dataType auxWidth : Nat) (s : State) :
    (compress n dataType auxWidth s).All s.SameButCompress := by
  unfold compress
  split
  · exact .of_raised rfl rfl
  · refine Res.All.bind (checkConfig_frame s) fun _ t ht => ?_
    refine Res.All.bind (Res.All.mono (lzMatch_frame n t) fun _ => ht.trans) fun _ t ht => ?_
    refine Res.All.bind (Res.All.mono (freqCount_frame t) fun _ => ht.trans) fun _ t ht => ?_
    refine Res.All.bind (Res.All.mono (huffBuild_frame t) fun _ => ht.trans) fun _ t ht => ?_
    refine Res.All.bind (Res.All.mono (huffCodes_frame t) fun _ => ht.trans) fun _ t ht => ?_
    have hp : s.SameButCompress (t.putDst 0 (headerBytes dataType auxWidth n)) := ht.trans (t.sameButCompress_putDst _ _)
    refine Res.All.bind (Res.All.mono (bwInit_frame 9 _) fun _ => hp.trans) fun _ t ht => ?_
    refine Res.All.bind (Res.All.mono (huffSerialize_frame t) fun _ => ht.trans) fun _ t ht => ?_
    refine Res.All.bind (Res.All.mono (huffEncode_frame t) fun _ => ht.trans) fun _ t ht => ?_
    exact Res.All.bind (Res.All.mono (flush_frame t) fun _ => ht.trans) fun _ t ht => .of_ok rfl ht

end Sys2Proof.Machine
end

