-- ==== Sys2Proof/Laws/Decode.lean ====
section
/-! SUPPORT. Decoding: the tables list no number and no instruction twice, and bytes and numbers undo each other (R73). -/

namespace Sys2Proof

/-- No OPCODE stands twice in the command table, so decoding is unambiguous (R101). -/
theorem commandTable_keys_nodup : (commandTable.map Prod.fst).Nodup := by decide

/-- No symbol stands twice in the symbol table (R110). -/
theorem symbolTable_keys_nodup : (symbolTable.map Prod.fst).Nodup := by decide +kernel

theorem commandTable_instrs_nodup : (commandTable.map Prod.snd).Nodup := by decide +kernel

theorem symbolTable_instrs_nodup : (symbolTable.map Prod.snd).Nodup := by decide +kernel

/-- Every table row's number is its instruction's word, written twice from the spec. -/
theorem commandTable_wordValue : ∀ row ∈ commandTable, row.2.wordValue = row.1 := by decide +kernel

theorem symbolTable_wordValue : ∀ row ∈ symbolTable, row.2.wordValue = row.1 := by decide +kernel

/-- What a table lookup finds is a row of the table. -/
theorem mem_of_lookupInstr (table : List (Nat × Instr)) (k : Nat) (i : Instr) (h : lookupInstr table k = some i) :
    (k, i) ∈ table := by
  unfold lookupInstr at h
  obtain ⟨row, hrow, rfl⟩ := Option.map_eq_some_iff.1 h
  have hk : row.1 = k := by simpa using List.find?_some hrow
  exact hk ▸ List.mem_of_find?_eq_some hrow

/-- A command's word decodes to it (R100, R101). -/
theorem decodeCommand_wordValue (i : Instr) (h : i.isCommand = true) : decodeCommand i.wordValue = .ok i := by
  cases i with
  | lit byte => cases h
  | _ => first | rfl | cases h

/-- A word decodes to a command exactly when it is that command's (R101, R102). -/
theorem decodeCommand_eq_ok_iff (w : Nat) (i : Instr) :
    decodeCommand w = .ok i ↔ i.isCommand = true ∧ w = i.wordValue := by
  refine ⟨fun h => ?_, fun ⟨hc, hw⟩ => hw ▸ decodeCommand_wordValue i hc⟩
  unfold decodeCommand at h
  split at h
  · cases h
  · split at h
    · rename_i j hj
      cases h
      have hm := mem_of_lookupInstr _ _ _ hj
      have hc : ∀ row ∈ commandTable, row.2.isCommand = true := by decide
      exact ⟨hc _ hm, (commandTable_wordValue _ hm).symm⟩
    · cases h

/-- A word is illegal exactly when it is no command's (R102, R144). -/
theorem decodeCommand_eq_error_iff (w : Nat) :
    (∃ r, decodeCommand w = .error r) ↔ ∀ i : Instr, i.isCommand = true → w ≠ i.wordValue := by
  constructor
  · rintro ⟨r, hr⟩ i hc hw
    rw [(decodeCommand_eq_ok_iff w i).2 ⟨hc, hw⟩] at hr
    cases hr
  · intro hn
    cases h : decodeCommand w with
    | error r => exact ⟨r, rfl⟩
    | ok i => exact absurd ((decodeCommand_eq_ok_iff w i).1 h).2 (hn i ((decodeCommand_eq_ok_iff w i).1 h).1)

@[simp] theorem bytesLE_length (n v : Nat) : (bytesLE n v).length = n := by
  induction n generalizing v with
  | zero => rfl
  | succ n ih => simp [bytesLE, ih]

theorem natOfBytesLE_lt (bytes : List Byte) : natOfBytesLE bytes < 2 ^ (8 * bytes.length) := by
  induction bytes with
  | nil => simp [natOfBytesLE]
  | cons b bs ih =>
    have hb := b.isLt
    rw [natOfBytesLE, List.length_cons, show 8 * (bs.length + 1) = 8 * bs.length + 8 by omega, Nat.pow_add]
    omega

/-- A number that fits comes back from its bytes (R73). -/
theorem natOfBytesLE_bytesLE (n v : Nat) (h : v < 2 ^ (8 * n)) : natOfBytesLE (bytesLE n v) = v := by
  induction n generalizing v with
  | zero => simp at h; simp [bytesLE, natOfBytesLE, h]
  | succ n ih =>
    have hd : v / 256 < 2 ^ (8 * n) := by
      rw [show 8 * (n + 1) = 8 * n + 8 by omega, Nat.pow_add] at h
      omega
    rw [bytesLE, natOfBytesLE, ih _ hd, BitVec.toNat_ofNat]
    omega

/-- Bytes come back from their number (R73). -/
theorem bytesLE_natOfBytesLE (bytes : List Byte) : bytesLE bytes.length (natOfBytesLE bytes) = bytes := by
  induction bytes with
  | nil => rfl
  | cons b bs ih =>
    have hb : b.toNat < 256 := b.isLt
    rw [List.length_cons, natOfBytesLE, bytesLE, show (b.toNat + 256 * natOfBytesLE bs) / 256 = natOfBytesLE bs by omega, ih]
    congr 1
    apply BitVec.eq_of_toNat_eq
    rw [BitVec.toNat_ofNat]
    omega

end Sys2Proof
end

