-- ==== Sys2Proof/Laws/Dispatch.lean ====
section
/-! SUPPORT. exec and step by cases: the symbols of R190 and R191 as their shared meanings, and what each turn calls. -/

namespace Sys2Proof.Machine

/-- Every length symbol runs execLength with its own number (R298). -/
theorem exec_of_mem_lengthSymbolTable (s : State) : ∀ row ∈ lengthSymbolTable, exec row.2 s = execLength row.1 s := by
  simp only [lengthSymbolTable, List.forall_mem_cons]
  repeat' apply And.intro
  all_goals first | rfl | simp

/-- Every distance symbol runs execDistance with its own number (R298, R299). -/
theorem exec_of_mem_distanceSymbolTable (s : State) :
    ∀ row ∈ distanceSymbolTable, exec row.2 s = execDistance row.1 s := by
  simp only [distanceSymbolTable, List.forall_mem_cons]
  repeat' apply And.intro
  all_goals first | rfl | simp

/-- Every symbol of the length table has a base and extra bits, and its lengths lie in [3, 258] (R190). -/
theorem codeToLengthBase_of_mem : ∀ row ∈ lengthSymbolTable, ∃ b e, codeToLengthBase row.1 = some (b, e) ∧
    3 ≤ b ∧ b + 2 ^ e - 1 ≤ 258 ∧ e ≤ 5 := by
  have h : ∀ row ∈ lengthSymbolTable, (codeToLengthBase row.1).any
      (fun x => decide (3 ≤ x.1 ∧ x.1 + 2 ^ x.2 - 1 ≤ 258 ∧ x.2 ≤ 5)) = true := by decide +kernel
  intro row hr
  have hp := h row hr
  cases hx : codeToLengthBase row.1 with
  | none => rw [hx] at hp; cases hp
  | some x => rw [hx] at hp; exact ⟨x.1, x.2, rfl, by simpa using hp⟩

/-- Every symbol of the distance table has a base and extra bits (R191). -/
theorem codeToDistanceBase_of_mem : ∀ row ∈ distanceSymbolTable, ∃ b e, codeToDistanceBase row.1 = some (b, e) ∧
    1 ≤ b ∧ b + 2 ^ e - 1 ≤ 65536 ∧ e ≤ 14 := by
  have h : ∀ row ∈ distanceSymbolTable, (codeToDistanceBase row.1).any
      (fun x => decide (1 ≤ x.1 ∧ x.1 + 2 ^ x.2 - 1 ≤ 65536 ∧ x.2 ≤ 14)) = true := by decide +kernel
  intro row hr
  have hp := h row hr
  cases hx : codeToDistanceBase row.1 with
  | none => rw [hx] at hp; cases hp
  | some x => rw [hx] at hp; exact ⟨x.1, x.2, rfl, by simpa using hp⟩

/-- What a step calls, by the head of the turns. -/
theorem step_of_nil (s : State) (h : s.pending = []) : step s = engineStep s := by
  simp [step, stepTurns, h]

theorem step_of_port (s : State) (op : PortOp) (rest : List Turn) (h : s.pending = .port op :: rest) :
    step s = portStep op { s with pending := rest } := by
  simp [step, stepTurns, turnStep, h]

theorem step_of_poll (s : State) (rest : List Turn) (h : s.pending = .poll :: rest) : step s = pollStep rest s := by
  simp [step, stepTurns, turnStep, h]

theorem step_of_engine (s : State) (rest : List Turn) (h : s.pending = .engine :: rest) :
    step s = engineStep { s with pending := rest } := by
  simp [step, stepTurns, turnStep, h]

/-- The Engine's move, whoever asks for it (R117, R141; log 5, 6, 18). -/
theorem step_of_engineMovesFrom (s s0 : State) (h : s.EngineMovesFrom s0) (hb : s.busy = true) : step s = engineStep s0 := by
  rcases h with ⟨rest, hp, rfl⟩ | ⟨rest, hp, rfl⟩ | ⟨hp, rfl⟩
  · exact step_of_engine s rest hp
  · rw [step_of_poll s0 rest hp, pollStep, if_pos hb]
  · exact step_of_nil s0 hp

@[simp] theorem TreeRegs.accepted_root (t : TreeRegs) (i : Instr) : (t.accepted i).root = t.root := rfl
@[simp] theorem TreeRegs.accepted_nodes (t : TreeRegs) (i : Instr) : (t.accepted i).nodes = t.nodes := rfl
@[simp] theorem TreeRegs.accepted_valid (t : TreeRegs) (i : Instr) :
    (t.accepted i).valid = (t.valid && !replacesTree i) := rfl

/-- Accept never makes a tree valid (R35). -/
theorem TreeRegs.valid_of_accepted (t : TreeRegs) (i : Instr) (h : (t.accepted i).valid = true) :
    t.accepted i = t := by
  cases t
  simp_all [TreeRegs.accepted]

/-- A CMD write is accepted, or ends at once with IllegalCommand (R35, R141, R144). -/
theorem State.submit_of_command (s : State) (w : Word) (i : Instr) (h : decodeCommand w.toNat = .ok i) :
    s.submit w = { s.accept w with tree := s.tree.accepted i } := by
  simp [State.submit, h]

theorem State.submit_of_illegal (s : State) (w : Word) (r : Reject) (h : decodeCommand w.toNat = .error r) :
    s.submit w = (s.accept w).raise .illegalCommand 0 w.toNat := by
  simp [State.submit, h]

end Sys2Proof.Machine
end

