-- ==== Sys2Proof/Laws/PerInstr.lean ====
section
/-! SUPPORT. The statements about each instruction as syntax. WordFits: the value of its word fits the bytes of its format
(R100, R110). -/

namespace Sys2Proof.Laws.WordFits

/-- The value of an instruction's word fits the bytes of its format. -/
def Statement (i : Instr) : Prop := i.wordValue < 2 ^ (8 * i.format.bytes)

/-- The check, computed. -/
theorem of_check {i : Instr} (h : (i.wordValue + 1).ble (2 ^ (8 * i.format.bytes)) = true) : Statement i :=
  Nat.le_of_ble_eq_true h

theorem nop : Statement .nop := of_check rfl
theorem bwInit : Statement .bwInit := of_check rfl
theorem bwBits : Statement .bwBits := of_check rfl
theorem bwFlush : Statement .bwFlush := of_check rfl
theorem brInit : Statement .brInit := of_check rfl
theorem brBits : Statement .brBits := of_check rfl
theorem lenEnc : Statement .lenEnc := of_check rfl
theorem lenDec : Statement .lenDec := of_check rfl
theorem distEnc : Statement .distEnc := of_check rfl
theorem distDec : Statement .distDec := of_check rfl
theorem lzMatch : Statement .lzMatch := of_check rfl
theorem freqCount : Statement .freqCount := of_check rfl
theorem huffBuild : Statement .huffBuild := of_check rfl
theorem huffCodes : Statement .huffCodes := of_check rfl
theorem huffSerialize : Statement .huffSerialize := of_check rfl
theorem huffEncode : Statement .huffEncode := of_check rfl
theorem huffDeserialize : Statement .huffDeserialize := of_check rfl
theorem huffDecodeSym : Statement .huffDecodeSym := of_check rfl
theorem compress : Statement .compress := of_check rfl
theorem decompress : Statement .decompress := of_check rfl
theorem lit (byte : Byte) : Statement (.lit byte) := by
  have h : byte.toNat < 2 ^ 8 := byte.isLt
  have hf : (Instr.lit byte).format = .sym9 := by simp [Instr.format, commandTable]
  unfold Statement
  rw [hf]
  simp only [Instr.wordValue, Format.bytes]
  omega
theorem eos : Statement .eos := of_check rfl
theorem len257 : Statement .len257 := of_check rfl
theorem len258 : Statement .len258 := of_check rfl
theorem len259 : Statement .len259 := of_check rfl
theorem len260 : Statement .len260 := of_check rfl
theorem len261 : Statement .len261 := of_check rfl
theorem len262 : Statement .len262 := of_check rfl
theorem len263 : Statement .len263 := of_check rfl
theorem len264 : Statement .len264 := of_check rfl
theorem len265 : Statement .len265 := of_check rfl
theorem len266 : Statement .len266 := of_check rfl
theorem len267 : Statement .len267 := of_check rfl
theorem len268 : Statement .len268 := of_check rfl
theorem len269 : Statement .len269 := of_check rfl
theorem len270 : Statement .len270 := of_check rfl
theorem len271 : Statement .len271 := of_check rfl
theorem len272 : Statement .len272 := of_check rfl
theorem len273 : Statement .len273 := of_check rfl
theorem len274 : Statement .len274 := of_check rfl
theorem len275 : Statement .len275 := of_check rfl
theorem len276 : Statement .len276 := of_check rfl
theorem len277 : Statement .len277 := of_check rfl
theorem len278 : Statement .len278 := of_check rfl
theorem len279 : Statement .len279 := of_check rfl
theorem len280 : Statement .len280 := of_check rfl
theorem len281 : Statement .len281 := of_check rfl
theorem len282 : Statement .len282 := of_check rfl
theorem len283 : Statement .len283 := of_check rfl
theorem len284 : Statement .len284 := of_check rfl
theorem len285 : Statement .len285 := of_check rfl
theorem dist300 : Statement .dist300 := of_check rfl
theorem dist301 : Statement .dist301 := of_check rfl
theorem dist302 : Statement .dist302 := of_check rfl
theorem dist303 : Statement .dist303 := of_check rfl
theorem dist304 : Statement .dist304 := of_check rfl
theorem dist305 : Statement .dist305 := of_check rfl
theorem dist306 : Statement .dist306 := of_check rfl
theorem dist307 : Statement .dist307 := of_check rfl
theorem dist308 : Statement .dist308 := of_check rfl
theorem dist309 : Statement .dist309 := of_check rfl
theorem dist310 : Statement .dist310 := of_check rfl
theorem dist311 : Statement .dist311 := of_check rfl
theorem dist312 : Statement .dist312 := of_check rfl
theorem dist313 : Statement .dist313 := of_check rfl
theorem dist314 : Statement .dist314 := of_check rfl
theorem dist315 : Statement .dist315 := of_check rfl
theorem dist316 : Statement .dist316 := of_check rfl
theorem dist317 : Statement .dist317 := of_check rfl
theorem dist318 : Statement .dist318 := of_check rfl
theorem dist319 : Statement .dist319 := of_check rfl
theorem dist320 : Statement .dist320 := of_check rfl
theorem dist321 : Statement .dist321 := of_check rfl
theorem dist322 : Statement .dist322 := of_check rfl
theorem dist323 : Statement .dist323 := of_check rfl
theorem dist324 : Statement .dist324 := of_check rfl
theorem dist325 : Statement .dist325 := of_check rfl
theorem dist326 : Statement .dist326 := of_check rfl
theorem dist327 : Statement .dist327 := of_check rfl
theorem dist328 : Statement .dist328 := of_check rfl
theorem dist329 : Statement .dist329 := of_check rfl
theorem dist330 : Statement .dist330 := of_check rfl
theorem dist331 : Statement .dist331 := of_check rfl

end Sys2Proof.Laws.WordFits
end

