-- ==== Sys2Proof/Tests/Slice0.lean ====
section
/-! SUPPORT. The model's own tests. Every expected value is taken from the spec: the encoding tables of R101 and R110, the
tables of R190 and R191, and the vectors of 95_test_vectors.md, whose row each test names. -/

namespace Sys2Proof.Tests

open Sys2Proof Sys2Proof.Machine

set_option Elab.async false

/-! ## Helpers -/

/-- The next state of an outcome, if it is one. -/
def answered (o : Host.Outcome State Fault Refusal) : Option State :=
  match o with
  | .next t => some t
  | .fault _ => none
  | .refused _ => none

/-- A check of the next state. -/
def check (o : Host.Outcome State Fault Refusal) (p : State → Bool) : Bool := (answered o).any p

theorem exists_of_check {o : Host.Outcome State Fault Refusal} {p : State → Bool} (h : check o p = true) :
    ∃ t, o = .next t ∧ p t = true := by
  cases o with
  | next t => exact ⟨t, rfl, h⟩
  | fault f => cases h
  | refused r => cases h

/-- A small legal instance (R5). -/
def inst : Config.Params := { srcSize := 16, dstSize := 32, nodeCap := 635 }

/-- The instance at power-on. -/
def cold : State := State.powerOn inst

/-- The same with another DST_SIZE. -/
def coldDst (n : Nat) : State := State.powerOn { inst with dstSize := n }

/-- Latched operands. -/
def ops (a0 a1 a2 : Nat) (s : State) : State :=
  { s with phase := .latched, latchArg := { r0 := Word.ofNat a0, r1 := Word.ofNat a1, r2 := Word.ofNat a2, r3 := 0 } }

/-- SRC holding these bytes. -/
def withSrc (bytes : List Nat) (s : State) : State := { s with src := Mem.cells 0 (bytes.map (BitVec.ofNat 8)) }

/-- BW_* holding these values. -/
def withWriter (pos cnt acc total : Nat) (s : State) : State :=
  { s with bw := { pos := Word.ofNat pos, cnt := Word.ofNat cnt, acc := Word.ofNat acc, total := Word.ofNat total } }

/-- BR_* holding these values. -/
def withReader (pos stop cnt acc : Nat) (s : State) : State :=
  { s with br := { pos := Word.ofNat pos, stop := Word.ofNat stop, cnt := Word.ofNat cnt, acc := Word.ofNat acc } }

/-- TOK and TOK_COUNT holding these token words. -/
def withToks (ws : List Nat) (s : State) : State :=
  { s with tok := Mem.cells 0 (ws.map (BitVec.ofNat 32)), tokCount := Word.ofNat ws.length }

/-- FREQ holding these counts and 0 elsewhere. -/
def withFreq (counts : List (Nat × Nat)) (s : State) : State :=
  { s with freq := Mem.cells 0 ((List.range 512).map (fun i => BitVec.ofNat 32 ((counts.lookup i).getD 0))) }

/-- NODE and TREE_* holding this arena, its root last or first. -/
def withNodes (root : Nat) (ws : List Nat) (s : State) : State :=
  { s with node := Mem.cells 0 (ws.map (BitVec.ofNat 64)),
           tree := { root := Word.ofNat root, nodes := Word.ofNat ws.length, valid := true } }

/-- CODE holding these entries and 0 elsewhere. -/
def withCodes (entries : List (Nat × Nat)) (s : State) : State :=
  { s with code := Mem.cells 0 ((List.range 512).map (fun i => BitVec.ofNat 64 ((entries.lookup i).getD 0))) }

/-- The Scenario A tree as HUFF_BUILD lays it out (S-A). -/
def treeA (s : State) : State :=
  withNodes 6 [0x8000000000000041, 0x8000000000000100, 0x8000000000000107, 0x800000000000012C,
    0x0000000100000041, 0x0000000300020107, 0x0000000500040041] s

/-- The Scenario A codes (S-A). -/
def codesA (s : State) : State :=
  withCodes [(65, 0x8200000000000000), (256, 0x8200000000000001), (263, 0x8200000000000002), (300, 0x8200000000000003)] s

/-- The Scenario A container (S-A). -/
def containerA : List Nat := [0, 0, 0, 0, 0, 0x0A, 0, 0, 0, 0x24, 0x1C, 0x01, 0x83, 0xE5, 0x85, 0xA0]

/-- The decode loop at OUT_LEN = out, originalLength = len, with a length waiting or not. -/
def decoding (out len : Nat) (wait : Option Nat) (s : State) : State :=
  { s with phase := .decoding, outLen := Word.ofNat out,
           dec := { len := len, dataType := 7, auxWidth := 5, pendingLen := wait } }

/-- Completion with these results: STATUS = 0x0002 (R143). -/
def completes (r0 r1 r2 r3 : Nat) (t : State) : Bool :=
  t.status.done && t.statusWord == 2 && t.errPos == 0 && t.errSym == 0 &&
    t.res == { r0 := Word.ofNat r0, r1 := Word.ofNat r1, r2 := Word.ofNat r2, r3 := Word.ofNat r3 }

/-- An error with this code and context: STATUS = code * 0x100 + 4, RES zeroed (R321). -/
def raises (code pos sym : Nat) (t : State) : Bool :=
  t.statusWord == Word.ofNat (code * 0x100 + 4) && t.errPos == Word.ofNat pos && t.errSym == Word.ofNat sym &&
    t.res == Quad.zero

/-- DST from a holds these bytes. -/
def dstIs (a : Nat) (bytes : List Nat) (t : State) : Bool :=
  (List.range bytes.length).all (fun i => t.dst.get? (a + i) == (bytes[i]?).map (BitVec.ofNat 8))

/-- BW_POS, BW_CNT, BW_ACC, BW_TOTAL. -/
def writerIs (pos cnt acc total : Nat) (t : State) : Bool :=
  t.bw == { pos := Word.ofNat pos, cnt := Word.ofNat cnt, acc := Word.ofNat acc, total := Word.ofNat total }

/-- BR_POS, BR_CNT, BR_ACC. -/
def readerIs (pos cnt acc : Nat) (t : State) : Bool :=
  t.br.pos == Word.ofNat pos && t.br.cnt == Word.ofNat cnt && t.br.acc == Word.ofNat acc

/-! ## Decoding: every constructor's word, written out from R100, R101 and R110 -/

def Decodes (f : Format) (rows : List (List Byte × Instr)) : Bool :=
  rows.all (fun row => match decode f row.1 with
    | .ok i => i == row.2 && encode i == row.1
    | .error _ => false)

def commandWords : List (List Byte × Instr) := [
  ([0x00, 0, 0, 0, 0, 0, 0, 0], .nop), ([0x01, 0, 0, 0, 0, 0, 0, 0], .bwInit), ([0x02, 0, 0, 0, 0, 0, 0, 0], .bwBits),
  ([0x03, 0, 0, 0, 0, 0, 0, 0], .bwFlush), ([0x04, 0, 0, 0, 0, 0, 0, 0], .brInit), ([0x05, 0, 0, 0, 0, 0, 0, 0], .brBits),
  ([0x08, 0, 0, 0, 0, 0, 0, 0], .lenEnc), ([0x09, 0, 0, 0, 0, 0, 0, 0], .lenDec), ([0x0A, 0, 0, 0, 0, 0, 0, 0], .distEnc),
  ([0x0B, 0, 0, 0, 0, 0, 0, 0], .distDec), ([0x10, 0, 0, 0, 0, 0, 0, 0], .lzMatch), ([0x18, 0, 0, 0, 0, 0, 0, 0], .freqCount),
  ([0x19, 0, 0, 0, 0, 0, 0, 0], .huffBuild), ([0x1A, 0, 0, 0, 0, 0, 0, 0], .huffCodes), ([0x1B, 0, 0, 0, 0, 0, 0, 0], .huffSerialize),
  ([0x1C, 0, 0, 0, 0, 0, 0, 0], .huffEncode), ([0x20, 0, 0, 0, 0, 0, 0, 0], .huffDeserialize), ([0x21, 0, 0, 0, 0, 0, 0, 0], .huffDecodeSym),
  ([0x30, 0, 0, 0, 0, 0, 0, 0], .compress), ([0x31, 0, 0, 0, 0, 0, 0, 0], .decompress)]

def lengthSymbolWords : List (List Byte × Instr) := [
  ([0x01, 0x01], .len257), ([0x02, 0x01], .len258), ([0x03, 0x01], .len259), ([0x04, 0x01], .len260), ([0x05, 0x01], .len261),
  ([0x06, 0x01], .len262), ([0x07, 0x01], .len263), ([0x08, 0x01], .len264), ([0x09, 0x01], .len265), ([0x0A, 0x01], .len266),
  ([0x0B, 0x01], .len267), ([0x0C, 0x01], .len268), ([0x0D, 0x01], .len269), ([0x0E, 0x01], .len270), ([0x0F, 0x01], .len271),
  ([0x10, 0x01], .len272), ([0x11, 0x01], .len273), ([0x12, 0x01], .len274), ([0x13, 0x01], .len275), ([0x14, 0x01], .len276),
  ([0x15, 0x01], .len277), ([0x16, 0x01], .len278), ([0x17, 0x01], .len279), ([0x18, 0x01], .len280), ([0x19, 0x01], .len281),
  ([0x1A, 0x01], .len282), ([0x1B, 0x01], .len283), ([0x1C, 0x01], .len284), ([0x1D, 0x01], .len285)]

def distanceSymbolWords : List (List Byte × Instr) := [
  ([0x2C, 0x01], .dist300), ([0x2D, 0x01], .dist301), ([0x2E, 0x01], .dist302), ([0x2F, 0x01], .dist303), ([0x30, 0x01], .dist304),
  ([0x31, 0x01], .dist305), ([0x32, 0x01], .dist306), ([0x33, 0x01], .dist307), ([0x34, 0x01], .dist308), ([0x35, 0x01], .dist309),
  ([0x36, 0x01], .dist310), ([0x37, 0x01], .dist311), ([0x38, 0x01], .dist312), ([0x39, 0x01], .dist313), ([0x3A, 0x01], .dist314),
  ([0x3B, 0x01], .dist315), ([0x3C, 0x01], .dist316), ([0x3D, 0x01], .dist317), ([0x3E, 0x01], .dist318), ([0x3F, 0x01], .dist319),
  ([0x40, 0x01], .dist320), ([0x41, 0x01], .dist321), ([0x42, 0x01], .dist322), ([0x43, 0x01], .dist323), ([0x44, 0x01], .dist324),
  ([0x45, 0x01], .dist325), ([0x46, 0x01], .dist326), ([0x47, 0x01], .dist327), ([0x48, 0x01], .dist328), ([0x49, 0x01], .dist329),
  ([0x4A, 0x01], .dist330), ([0x4B, 0x01], .dist331)]

theorem test_decode_commands : Decodes .cmd64 commandWords = true := by decide +kernel

theorem test_decode_length_symbols : Decodes .sym9 lengthSymbolWords = true := by decide +kernel

theorem test_decode_distance_symbols : Decodes .sym9 distanceSymbolWords = true := by decide +kernel

theorem test_decode_literals_and_eos : Decodes .sym9
    [([0x00, 0x00], .lit 0), ([0x41, 0x00], .lit 0x41), ([0xFF, 0x00], .lit 0xFF), ([0x00, 0x01], .eos)] = true := by
  decide +kernel

theorem test_reject_commands :
    (decode .cmd64 [0x06, 0, 0, 0, 0, 0, 0, 0]).toOption = none ∧ (decode .cmd64 [0x32, 0, 0, 0, 0, 0, 0, 0]).toOption = none ∧
    (decode .cmd64 [0xFF, 0, 0, 0, 0, 0, 0, 0]).toOption = none ∧ (decode .cmd64 [0x10, 0x01, 0, 0, 0, 0, 0, 0]).toOption = none ∧
    (decode .cmd64 [0x01, 0, 0, 0, 0, 0, 0, 0x80]).toOption = none ∧ (decode .cmd64 [0x00]).toOption = none := by
  decide +kernel

theorem test_reject_symbols :
    (decode .sym9 [0x1E, 0x01]).toOption = none ∧ (decode .sym9 [0x2B, 0x01]).toOption = none ∧
    (decode .sym9 [0x4C, 0x01]).toOption = none ∧ (decode .sym9 [0xFF, 0x01]).toOption = none ∧
    (decode .sym9 [0x00, 0x02]).toOption = none := by
  decide +kernel

theorem test_table_words :
    decodeTableWord 64 0x31 = some .decompress ∧ decodeTableWord 16 0x41 = some (.lit 0x41) ∧
    decodeTableWord 16 331 = some .dist331 ∧ decodeTableWord 64 0x110 = none := by
  decide +kernel

/-! ## WellFormed: one ill-formed statement for each check (R117, R118) -/

theorem test_wf_wr_refuses_wide : Stmt.wf inst (.wr .cfgWindow (2 ^ 64)) = false := by decide
theorem test_wf_wm_refuses_index : Stmt.wf inst (.wm .src 16 0) = false := by decide
theorem test_wf_wm_refuses_value : Stmt.wf inst (.wm .src 0 256) = false := by decide
theorem test_wf_rm_refuses_index : Stmt.wf inst (.rm .node 635) = false := by decide
theorem test_wf_cmd_refuses_symbol : Stmt.wf inst (.cmd (.lit 65)) = false := by decide
theorem test_wf_call_refuses_symbol : Stmt.wf inst (.call .eos []) = false := by decide
theorem test_wf_call_refuses_five_operands : Stmt.wf inst (.call .nop [0, 0, 0, 0, 0]) = false := by decide
theorem test_wf_call_refuses_wide : Stmt.wf inst (.call .bwInit [2 ^ 64]) = false := by decide
theorem test_wf_ldb_refuses_memory : Stmt.wf inst (.ldb .tok 0 [0]) = false := by decide
theorem test_wf_ldb_refuses_range : Stmt.wf inst (.ldb .src 15 [0, 0]) = false := by decide
theorem test_wf_expect_refuses_wide : Stmt.wf inst (.expect .res0 (2 ^ 64)) = false := by decide
theorem test_wf_accepts :
    [Stmt.wr .cfgWindow 32768, .rd .id, .wm .freq 511 1, .rm .src 15, .cmd .compress, .poll, .call .compress [10, 0, 0],
      .ldb .src 0 [1, 2], .expect .res0 16].all (Stmt.wf inst) = true := by decide +kernel

/-- R118: MNEMONIC a0, a1 is wr ARG0, wr ARG1, wr CMD, poll; ldb is one wm per byte. -/
theorem test_expand :
    expand (.call .brInit [0, 7]) = [.port (.write 0x030 8 0), .port (.write 0x038 8 7), .port (.write 0x028 8 4), .poll] ∧
    expand (.ldb .src 1 [0xA5, 0x3C]) =
      [.port (.write 0x20000000001 1 0xA5), .port (.write 0x20000000002 1 0x3C)] := by
  decide +kernel

/-! ## Control (V-CTL) and the bit stream (V-BW, V-BR) -/

/-- C1, C7. -/
theorem test_nop : check (exec .nop { ops 0 0 0 cold with errSym := 6 }) (completes 0 0 0 0) = true := by decide +kernel

/-- C5, C8: the low byte 0x10 is LZ_MATCH, but bits 63:8 are not 0; the write itself ends the command. -/
theorem test_illegal_command :
    check (step { cold with pending := [.port (.write 0x028 8 0x110)] })
      (fun t => raises 11 0 0x110 t && t.cmd == 0x110) = true := by decide +kernel

/-- W10. -/
theorem test_bwInit :
    check (exec .bwInit (ops 4 0 0 (withWriter 1 1 1 9 (coldDst 9)))) (writerIs 4 0 0 0) = true := by decide +kernel

theorem test_bwInit_beyond : check (exec .bwInit (ops 10 0 0 (coldDst 9))) (raises 7 0 10) = true := by decide +kernel

/-- W5, second command: 7 pending bits and n = 57 write 8 bytes. -/
theorem test_bwBits : check (exec .bwBits (ops 0x123456789ABCDEF 57 0 (withWriter 0 7 0x55 7 cold)))
    (fun t => writerIs 8 0 0 64 t && dstIs 0 [0xAB, 0x23, 0x45, 0x67, 0x89, 0xAB, 0xCD, 0xEF] t) = true := by
  decide +kernel

/-- W9, third command. -/
theorem test_bwBits_full : check (exec .bwBits (ops 0x7F 7 0 (withWriter 9 1 1 9 (coldDst 9))))
    (fun t => raises 8 9 7 t && writerIs 9 1 1 9 t) = true := by decide +kernel

/-- W3f. -/
theorem test_bwFlush : check (exec .bwFlush (ops 0 0 0 (withWriter 1 4 13 12 cold)))
    (fun t => completes 2 0 0 0 t && writerIs 2 0 0 12 t && dstIs 1 [0xD0] t) = true := by decide +kernel

/-- W8, third command. -/
theorem test_bwFlush_full : check (exec .bwFlush (ops 0 0 0 (withWriter 9 1 1 73 (coldDst 9))))
    (fun t => raises 8 9 0 t && writerIs 9 1 1 73 t) = true := by decide +kernel

theorem test_brInit : check (exec .brInit (ops 3 3 0 (withReader 1 2 4 5 cold)))
    (fun t => completes 0 0 0 0 t && readerIs 3 0 0 t && t.br.stop == 3) = true := by decide +kernel

/-- R5. -/
theorem test_brInit_backwards : check (exec .brInit (ops 5 4 0 cold)) (raises 7 0 5) = true := by decide +kernel

/-- R3, second read: 57 bits load 7 bytes. -/
theorem test_brBits : check (exec .brBits (ops 57 0 0 (withReader 1 9 1 1 (withSrc [1, 2, 3, 4, 5, 6, 7, 8, 9] cold))))
    (fun t => completes 0x0102030405060708 0 0 0 t && readerIs 8 0 0 t) = true := by decide +kernel

/-- R2e. -/
theorem test_brBits_short : check (exec .brBits (ops 5 0 0 (withReader 2 2 4 12 (withSrc [0xA5, 0x3C] cold))))
    (fun t => raises 1 2 5 t && readerIs 2 4 12 t) = true := by decide +kernel

/-! ## Alphabet (V-AL1, V-AL2) -/

theorem test_lenEnc :
    check (exec .lenEnc (ops 257 0 0 cold)) (completes 284 5 30 0) = true ∧
    check (exec .lenEnc (ops 258 0 0 cold)) (completes 285 0 0 0) = true ∧
    check (exec .lenEnc (ops 34 0 0 cold)) (completes 272 2 3 0) = true := by decide +kernel

theorem test_lenEnc_domain :
    check (exec .lenEnc (ops 2 0 0 cold)) (raises 7 0 2) = true ∧
    check (exec .lenEnc (ops 259 0 0 cold)) (raises 7 0 259) = true := by decide +kernel

theorem test_lenDec :
    check (exec .lenDec (ops 284 0 0 cold)) (completes 227 5 0 0) = true ∧
    check (exec .lenDec (ops 276 0 0 cold)) (completes 59 3 0 0) = true := by decide +kernel

theorem test_lenDec_domain :
    check (exec .lenDec (ops 256 0 0 cold)) (raises 7 0 256) = true ∧
    check (exec .lenDec (ops 286 0 0 cold)) (raises 7 0 286) = true := by decide +kernel

theorem test_distEnc :
    check (exec .distEnc (ops 32768 0 0 cold)) (completes 329 13 8191 0) = true ∧
    check (exec .distEnc (ops 1024 0 0 cold)) (completes 319 8 255 0) = true ∧
    check (exec .distEnc (ops 65535 0 0 { cold with cfg := { cold.cfg with window := 65536 } }))
      (completes 331 14 16382 0) = true := by decide +kernel

/-- C10: the window check first, with the register's offset. -/
theorem test_distEnc_window :
    check (exec .distEnc (ops 1 0 0 { cold with cfg := { cold.cfg with window := 65537 } })) (raises 7 0x80 65537) = true ∧
    check (exec .distEnc (ops 32769 0 0 cold)) (raises 7 0 32769) = true := by decide +kernel

theorem test_distDec :
    check (exec .distDec (ops 329 0 0 cold)) (completes 24577 13 0 0) = true ∧
    check (exec .distDec (ops 331 0 0 cold)) (completes 49153 14 0 0) = true := by decide +kernel

theorem test_distDec_domain :
    check (exec .distDec (ops 299 0 0 cold)) (raises 7 0 299) = true ∧
    check (exec .distDec (ops 332 0 0 cold)) (raises 7 0 332) = true := by decide +kernel

/-! ## Matcher (V-LZ) -/

def tokensAre (ts : List (Nat × Nat × Nat)) (t : State) : Bool :=
  t.tokens == ts.map (fun x => { sym := x.1, xbits := x.2.1, xval := x.2.2 })

/-- "abcXbcdeYabcde": lazy deferral to a longer match. -/
theorem test_lzMatch_defers : check (exec .lzMatch (ops 14 0 0
      (withSrc [97, 98, 99, 88, 98, 99, 100, 101, 89, 97, 98, 99, 100, 101] cold)))
    (fun t => completes 13 0 0 0 t && tokensAre [(97, 0, 0), (98, 0, 0), (99, 0, 0), (88, 0, 0), (98, 0, 0), (99, 0, 0),
      (100, 0, 0), (101, 0, 0), (89, 0, 0), (97, 0, 0), (258, 0, 0), (304, 1, 1), (256, 0, 0)] t) = true := by
  decide +kernel

/-- CFG_WINDOW = 0 and CFG_LAZYDIV = 0: the window is checked first. -/
theorem test_lzMatch_config :
    check (exec .lzMatch (ops 0 0 0 { cold with cfg := { cold.cfg with window := 0, lazyDiv := 0 } })) (raises 7 0x80 0) = true ∧
    check (exec .lzMatch (ops 17 0 0 { cold with cfg := { cold.cfg with window := 0 } })) (raises 7 0 17) = true := by
  decide +kernel

/-! ## Huffman encoder (V-HE, V-HS) -/

/-- S-A, count. -/
theorem test_freqCount : check (exec .freqCount (ops 0 0 0 (withToks [0x41, 0x107, 0x12C, 0x100] cold)))
    (fun t => completes 4 0 0 0 t && t.freq == (withFreq [(65, 1), (256, 1), (263, 1), (300, 1)] cold).freq) = true := by
  decide +kernel

/-- F2. -/
theorem test_freqCount_unassigned : check (exec .freqCount (ops 0 0 0 (withToks [65, 290] cold)))
    (fun t => raises 5 1 290 t && t.freq == []) = true := by decide +kernel

/-- S-A, build. -/
theorem test_huffBuild : check (exec .huffBuild (ops 0 0 0 (withFreq [(65, 1), (256, 1), (263, 1), (300, 1)] cold)))
    (fun t => completes 6 7 4 0 t && t.node == (treeA cold).node && t.tree == (treeA cold).tree) = true := by
  decide +kernel

/-- HB2. -/
theorem test_huffBuild_unassigned :
    check (exec .huffBuild (ops 0 0 0 (withFreq [(290, 1), (65, 1)] (treeA cold))))
      (fun t => raises 5 0 290 t && !t.tree.valid) = true := by decide +kernel

/-- S-A, codes. -/
theorem test_huffCodes : check (exec .huffCodes (ops 0 0 0 (treeA cold)))
    (fun t => completes 4 2 0 0 t && t.code == (codesA cold).code) = true := by decide +kernel

/-- HC2: a duplicate leaf is ignored. -/
theorem test_huffCodes_duplicate :
    check (exec .huffCodes (ops 0 0 0 (withNodes 0 [0x0000000200010041, 0x8000000000000041, 0x8000000000000041] cold)))
      (fun t => completes 1 1 0 0 t && t.code == (withCodes [(65, 0x8100000000000000)] cold).code) = true := by
  decide +kernel

/-- S1. -/
theorem test_huffSerialize : check (exec .huffSerialize (ops 0 0 0 (treeA cold)))
    (fun t => completes 43 0 0 0 t && writerIs 5 3 4 43 t && dstIs 0 [0x24, 0x1C, 0x01, 0x83, 0xE5] t) = true := by
  decide +kernel

/-- S7, moved up by the 5 bytes that a legal DST_SIZE is longer. -/
theorem test_huffSerialize_full : check (exec .huffSerialize (ops 0 0 0 (withWriter 5 0 0 0 (treeA (coldDst 9)))))
    (fun t => raises 8 9 9 t && writerIs 9 2 t.bw.acc.toNat 34 t && dstIs 5 [0x24, 0x1C, 0x01, 0x83] t) = true := by
  decide +kernel

/-- S5: only the low 3 bits of the extra value are written. -/
theorem test_huffEncode : check (exec .huffEncode (ops 0 0 0 (codesA (withToks [263 + 3 * 2 ^ 12 + 0xFF * 2 ^ 16] cold))))
    (fun t => completes 5 0 0 0 t && writerIs 0 5 0b10111 5 t) = true := by decide +kernel

/-- S6; then a code and extra bits without room, after 5 pending bits at the end of DST (R162, R248). -/
theorem test_huffEncode_errors :
    check (exec .huffEncode (ops 0 0 0 (codesA (withToks [65, 97] cold))))
      (fun t => raises 5 1 97 t && writerIs 0 2 0 2 t) = true ∧
    check (exec .huffEncode (ops 0 0 0 (withWriter 32 5 0 0 (codesA (withToks [65, 256] cold)))))
      (fun t => raises 8 32 2 t && writerIs 32 7 0 2 t) = true ∧
    check (exec .huffEncode (ops 0 0 0 (withWriter 32 5 0 0 (codesA (withToks [263 + 2 ^ 12] cold)))))
      (fun t => raises 8 32 1 t && writerIs 32 7 2 2 t) = true := by decide +kernel

/-! ## Huffman decoder (V-HD) -/

/-- D1. -/
theorem test_huffDeserialize : check (exec .huffDeserialize (ops 0 0 0 (withReader 9 16 0 0 (withSrc containerA cold))))
    (fun t => completes 0 7 0 0 t && readerIs 15 5 5 t && t.tree.valid && t.node == Mem.cells 0 [0x0000000400010041,
      0x0000000300020041, 0x8000000000000041, 0x8000000000000100, 0x0000000600050107, 0x8000000000000107,
      0x800000000000012C]) = true := by decide +kernel

/-- D5. -/
theorem test_huffDeserialize_short :
    check (exec .huffDeserialize (ops 0 0 0 (withReader 0 1 0 0 (withSrc [0] (treeA cold)))))
      (fun t => raises 2 1 9 t && !t.tree.valid) = true := by decide +kernel

/-- D2, first. -/
theorem test_huffDecodeSym : check (exec .huffDecodeSym (ops 0 0 0 (withReader 0 1 0 0 (withSrc [0x9C] (treeA cold)))))
    (fun t => completes 263 2 0 0 t && readerIs 1 6 0b011100 t) = true := by decide +kernel

/-- D2, fifth, and D8. -/
theorem test_huffDecodeSym_fails :
    check (exec .huffDecodeSym (ops 0 0 0 (withReader 1 1 0 0 (treeA cold)))) (raises 2 1 0) = true ∧
    check (exec .huffDecodeSym (ops 0 0 0 cold)) (raises 9 0 0) = true := by decide +kernel

/-! ## Container (V-CT1, V-DC) -/

/-- "aaaa": a match of length 3 at distance 1. -/
theorem test_compress : check (exec .compress (ops 4 0 0 (withSrc [97, 97, 97, 97] cold)))
    (fun t => completes 16 4 51 4 t &&
      dstIs 0 [0, 0, 0, 0, 0, 4, 0, 0, 0, 0x26, 0x1C, 0x01, 0x80, 0xE5, 0x85, 0xA0] t) = true := by decide +kernel

/-- The empty input's 11 bytes do not fit in 9: the leaf symbol's writeBits(256, 9) has no room (R162, R246, R290); then CE1
to CE3. -/
theorem test_compress_errors :
    check (exec .compress (ops 0 0 0 (coldDst 9))) (raises 8 9 9) = true ∧
    check (exec .compress (ops 10 2 0 cold)) (raises 7 1 2) = true ∧
    check (exec .compress (ops 10 0 5 cold)) (raises 7 2 5) = true ∧
    check (exec .compress (ops 10 1 0x100000000 cold)) (raises 7 2 0x100000000) = true := by decide +kernel

/-- "ok", up to the decode loop. -/
theorem test_decompress : check (exec .decompress (ops 16 0 0 (withSrc containerA cold)))
    (fun t => t.statusWord == 1 && t.outLen == 0 && readerIs 15 5 5 t &&
      t.dec == { len := 10, dataType := 0, auxWidth := 0, pendingLen := none }) = true := by decide +kernel

/-- "short header" and "too long". -/
theorem test_decompress_header :
    check (exec .decompress (ops 8 0 0 (withSrc containerA cold))) (raises 1 0 8) = true ∧
    check (exec .decompress (ops 16 0 0 (withSrc containerA (coldDst 9)))) (raises 8 0 10) = true := by decide +kernel

/-! ## Stream symbols (R296 to R299) -/

theorem test_lit : check (exec (.lit 0x58) (decoding 2 3 none cold))
    (fun t => t.statusWord == 1 && t.outLen == 3 && dstIs 2 [0x58] t) = true := by decide +kernel

/-- "one-leaf literal" and "SE after length". -/
theorem test_lit_fails :
    check (exec (.lit 88) (decoding 3 3 none cold)) (raises 6 3 88) = true ∧
    check (exec (.lit 65) (decoding 1 10 (some 9) cold)) (raises 3 1 65) = true := by decide +kernel

/-- "dt/aux passthrough": RES = (1, 7, 5, 15). -/
theorem test_eos : check (exec .eos (decoding 1 1 none (withReader 15 15 3 0 cold))) (completes 1 7 5 15) = true := by
  decide +kernel

/-- "LM early EOS". -/
theorem test_eos_early : check (exec .eos (decoding 1 10 none cold)) (raises 6 1 256) = true := by decide +kernel

/-- The top of each length symbol's range in R190; code 284 with extra 31 gives 258 (R298). -/
def lengthTops : List (Instr × Nat) := [
  (.len257, 3), (.len258, 4), (.len259, 5), (.len260, 6), (.len261, 7), (.len262, 8), (.len263, 9),
  (.len264, 10), (.len265, 12), (.len266, 14), (.len267, 16), (.len268, 18), (.len269, 22), (.len270, 26),
  (.len271, 30), (.len272, 34), (.len273, 42), (.len274, 50), (.len275, 58), (.len276, 66), (.len277, 82),
  (.len278, 98), (.len279, 114), (.len280, 130), (.len281, 162), (.len282, 194), (.len283, 226), (.len284, 258),
  (.len285, 258)]

/-- The top of each distance symbol's range in R191. -/
def distanceTops : List (Instr × Nat) := [
  (.dist300, 1), (.dist301, 2), (.dist302, 3), (.dist303, 4), (.dist304, 6), (.dist305, 8),
  (.dist306, 12), (.dist307, 16), (.dist308, 24), (.dist309, 32), (.dist310, 48), (.dist311, 64),
  (.dist312, 96), (.dist313, 128), (.dist314, 192), (.dist315, 256), (.dist316, 384), (.dist317, 512),
  (.dist318, 768), (.dist319, 1024), (.dist320, 1536), (.dist321, 2048), (.dist322, 3072), (.dist323, 4096),
  (.dist324, 6144), (.dist325, 8192), (.dist326, 12288), (.dist327, 16384), (.dist328, 24576), (.dist329, 32768),
  (.dist330, 49152), (.dist331, 65536)]

/-- With all extra bits 1 each length symbol gives the top of its range. -/
theorem test_length_symbols : lengthTops.all (fun row =>
      check (exec row.1 (decoding 0 300 none (withReader 0 4 0 0 (withSrc [0xFF, 0xFF, 0xFF, 0xFF] cold))))
        (fun t => t.dec.pendingLen == some row.2 && t.statusWord == 1)) = true := by decide +kernel

/-- "EOS in length extra", for every length symbol that has extra bits (R190). -/
theorem test_length_symbols_short :
    [Instr.len265, .len266, .len267, .len268, .len269, .len270, .len271, .len272, .len273, .len274, .len275, .len276,
      .len277, .len278, .len279, .len280, .len281, .len282, .len283, .len284].all (fun i =>
        check (exec i (decoding 2 20 none cold)) (raises 1 2 i.wordValue)) = true := by decide +kernel

/-- With all extra bits 1 and no output yet each distance symbol raises InvalidBackReference with the top of its range. -/
theorem test_distance_symbols_top : distanceTops.all (fun row =>
      check (exec row.1 (decoding 0 300 (some 3) (withReader 0 4 0 0 (withSrc [0xFF, 0xFF, 0xFF, 0xFF] cold))))
        (raises 4 0 row.2)) = true := by decide +kernel

/-- An overlapping copy: distance 3 after "abc" for 7 bytes gives "abcabca" (R298); then "LM copy over". -/
theorem test_distance_copies :
    check (exec .dist302 (decoding 3 10 (some 7) { cold with dst := Mem.cells 0 [97, 98, 99] }))
      (fun t => t.outLen == 10 && t.dec.pendingLen == none &&
        dstIs 0 [97, 98, 99, 97, 98, 99, 97, 98, 99, 97] t) = true ∧
    check (exec .dist300 (decoding 1 5 (some 9) { cold with dst := Mem.cells 0 [65] })) (raises 6 1 9) = true := by
  decide +kernel

/-- "SE primary", "SE unassigned", "US". -/
theorem test_symbols_out_of_place :
    check (exec .dist300 (decoding 0 10 none cold)) (raises 3 0 300) = true ∧
    check (runSymbol 290 (decoding 0 3 (some 3) cold)) (raises 3 0 290) = true ∧
    check (runSymbol 290 (decoding 0 1 none cold)) (raises 5 0 290) = true := by decide +kernel

/-! ## Host port and reset (R22 to R36, R71, R72, R80, V-EX) -/

def hostTurn (op : PortOp) (s : State) : State := { s with pending := [.port op] }

/-- X5, X4 and R32. -/
theorem test_host_reads :
    check (step (hostTurn (.read 0x000 8) cold)) (fun t => t.portData == 0x000100074C5A4855) = true ∧
    check (step (hostTurn (.read 0x008 8) cold)) (fun t => t.portData == 0) = true ∧
    check (step (hostTurn (.read 0x080 8) cold)) (fun t => t.portData == 32768) = true ∧
    check (step (hostTurn (.read 0x128 8) cold)) (fun t => t.portData == 0) = true := by decide +kernel

theorem test_host_writes_elements :
    check (step (hostTurn (.write 0x2000000000F 1 0x1A5) cold)) (fun t => t.src == [(15, 0xA5)]) = true ∧
    check (step (hostTurn (.write 0x001000007FC 4 7) cold)) (fun t => t.freq == [(511, 7)]) = true ∧
    check (step (hostTurn (.write 0x00200000000 8 7) cold)) (fun t => t.code == []) = true ∧
    check (step (hostTurn (.write 0x100 8 100) cold)) (fun t => t.tokCount == 17) = true := by decide +kernel

/-- R35: writing HUFF_BUILD's word to CMD clears TREE_VALID at accept; NOP's does not. -/
theorem test_accept_clears_tree :
    check (step (hostTurn (.write 0x028 8 0x19) (treeA cold))) (fun t => t.busy && !t.tree.valid && t.tree.root == 6) = true ∧
    check (step (hostTurn (.write 0x028 8 0) (treeA cold))) (fun t => t.busy && t.tree.valid) = true := by decide +kernel

theorem test_busy_write_is_dropped :
    check (step (hostTurn (.write 0x030 8 5) (ops 0 0 0 cold))) (fun t => t.arg.r0 == 0 && t.statusWord == 9) = true := by
  decide +kernel

/-- X3. -/
theorem test_soft_reset :
    check (step (hostTurn (.write 0x008 8 1) { withSrc [1] (treeA cold) with
        cfg := { cold.cfg with window := 100 }, errPos := 5, status := { done := false, err := true, wdrop := true, code := some .noTree } }))
      (fun t => t.statusWord == 0 && t.cfg.window == 32768 && t.errPos == 0 && !t.tree.valid &&
        t.src == [(0, 1)] && t.node == (treeA cold).node) = true := by decide +kernel

theorem test_reset : State.reset.statusWord = 0 ∧ State.reset.cfg.maxMatch = 258 ∧ State.reset.params.nodeCap = 1024 := by
  decide

/-- A command runs as the first instruction after reset, and so does a symbol (log 8). -/
theorem test_fetch_command :
    check (step (State.reset.withFetchWord 64 0x08)) (raises 7 0 0) = true ∧
    check (step (State.reset.withFetchWord 16 0x41)) (fun t => t.outLen == 1 && dstIs 0 [0x41] t) = true := by
  decide +kernel

end Sys2Proof.Tests
end

