-- ==== Sys2Proof/Tests/Witnesses.lean ====
section
/-! SUPPORT. For each statement with hypotheses, a concrete state and operands that meet all of them together, clause by
clause, at the boundary values. -/

namespace Sys2Proof.Tests

open Sys2Proof Sys2Proof.Machine

set_option Elab.async false

/-- The state in which a rule ends well. -/
def okState {α : Type} (r : Res α) : Option (α × State) :=
  match r with
  | .ok a s => some (a, s)
  | .raised _ _ _ _ => none
  | .stuck _ => none

theorem exists_of_ok {α : Type} {r : Res α} {p : α × State → Bool} (h : (okState r).any p = true) :
    ∃ a t, r = .ok a t ∧ p (a, t) = true := by
  cases r with
  | ok a s => exact ⟨a, s, rfl, h⟩
  | raised e pos sym s => cases h
  | stuck f => cases h

theorem next_of_check {o : Host.Outcome State Fault Refusal} {p : State → Bool} (h : check o p = true) :
    ∃ t, o = .next t :=
  (exists_of_check h).imp fun _ h => h.1

/-- A state with these turns to come. -/
def withTurns (turns : List Turn) (s : State) : State := { s with pending := turns }

/-! ## Steps and control -/

/-- The turns that let the Engine move, with the turns it leaves. -/
def engineMoves : List (List Turn × List Turn) := [([.engine], []), ([.poll], [.poll]), ([], [])]

theorem engineMovesFrom_of_mem (s : State) (x : List Turn × List Turn) (h : x ∈ engineMoves) :
    (withTurns x.1 s).EngineMovesFrom (withTurns x.2 s) := by
  simp only [engineMoves, List.mem_cons, List.not_mem_nil, or_false] at h
  rcases h with rfl | rfl | rfl
  · exact .inl ⟨[], rfl, rfl⟩
  · exact .inr (.inl ⟨[], rfl, rfl⟩)
  · exact .inr (.inr ⟨rfl, rfl⟩)

theorem witness_StepRunsLatchedCommand : ∀ x ∈ engineMoves,
    (withTurns x.1 (ops 0 0 0 cold)).EngineMovesFrom (withTurns x.2 (ops 0 0 0 cold)) ∧
    (withTurns x.1 (ops 0 0 0 cold)).phase = .latched ∧
    decodeCommand (withTurns x.1 (ops 0 0 0 cold)).latchCmd.toNat = .ok .nop :=
  fun x h => ⟨engineMovesFrom_of_mem _ x h, rfl, show decodeCommand 0 = .ok .nop from rfl⟩

/-- A decode loop whose tree is the one leaf 'X'. -/
def loopX : State := decoding 0 3 none (withNodes 0 [0x8000000000000058] cold)

/-- A decode loop whose tree is the one leaf of this symbol, with a length waiting or not. -/
def loopLeaf (sym : Nat) (wait : Option Nat) : State := decoding 0 3 wait (withNodes 0 [sym + 2 ^ 63] cold)

/-- A decode loop whose tree has two leaves, at the end of the stream. -/
def loopShort : State := decoding 1 3 none (treeA cold)

theorem decodeSym_loopX : ∀ x ∈ engineMoves,
    decodeSym (withTurns x.2 loopX) = .ok (0x58, 0) (withTurns x.2 loopX) := by
  decide +kernel

theorem decodeSym_loopLeaf : ∀ x ∈ engineMoves, ∀ y ∈ [(286, none), (299, some 3), (332, none), (511, some 258)],
    decodeSym (withTurns x.2 (loopLeaf y.1 y.2)) = .ok (y.1, 0) (withTurns x.2 (loopLeaf y.1 y.2)) := by
  decide +kernel

theorem decodeSym_loopShort : ∀ x ∈ engineMoves,
    decodeSym (withTurns x.2 loopShort) = .raised .malformedTree 0 0 (withTurns x.2 loopShort) := by
  decide +kernel

/-- Each clause, for each way the Engine can move: a literal, the boundary unassigned symbols in both positions, and a
descent that fails. -/
theorem witness_StepRunsDecodedSymbol : ∀ x ∈ engineMoves,
    ((withTurns x.1 loopX).EngineMovesFrom (withTurns x.2 loopX) ∧ (withTurns x.1 loopX).phase = .decoding ∧
      decodeSymbol 0x58 = .ok (.lit 0x58) ∧ decodeSym (withTurns x.2 loopX) = .ok (0x58, 0) (withTurns x.2 loopX)) ∧
    (∀ y ∈ [(286, none), (299, some 3), (332, none), (511, some 258)],
      (withTurns x.1 (loopLeaf y.1 y.2)).EngineMovesFrom (withTurns x.2 (loopLeaf y.1 y.2)) ∧
      decodeSym (withTurns x.2 (loopLeaf y.1 y.2)) = .ok (y.1, 0) (withTurns x.2 (loopLeaf y.1 y.2)) ∧
      (withTurns x.2 (loopLeaf y.1 y.2)).dec.pendingLen = y.2) ∧
    ((withTurns x.1 loopShort).EngineMovesFrom (withTurns x.2 loopShort) ∧
      decodeSym (withTurns x.2 loopShort) = .raised .malformedTree 0 0 (withTurns x.2 loopShort)) :=
  fun x h => ⟨⟨engineMovesFrom_of_mem _ x h, rfl, rfl, decodeSym_loopX x h⟩,
    fun y hy => ⟨engineMovesFrom_of_mem _ x h, decodeSym_loopLeaf x h y hy, rfl⟩,
    engineMovesFrom_of_mem _ x h, decodeSym_loopShort x h⟩

theorem witness_IllegalCommandRaises :
    (withTurns [.port (.write 0x028 8 6)] cold).phase = .idle ∧
    (withTurns [.port (.write 0x028 8 6)] cold).pending = .port (.write 0x028 8 6) :: [] ∧
    ∀ i : Instr, i.isCommand = true → (6 : Word).toNat ≠ i.wordValue ∧ (0x110 : Word).toNat ≠ i.wordValue := by
  refine ⟨rfl, rfl, fun i h => ?_⟩
  cases i with
  | lit byte => cases h
  | _ => first | (cases h; done) | decide

theorem witness_CmdWriteIsAccepted :
    ∀ i ∈ [Instr.nop, .huffBuild, .huffDeserialize, .decompress], i.isCommand = true ∧
      (withTurns [.port (.write 0x028 8 (Word.ofNat i.wordValue))] cold).phase = .idle ∧
      (withTurns [.port (.write 0x028 8 (Word.ofNat i.wordValue))] cold).pending =
        .port (.write 0x028 8 (Word.ofNat i.wordValue)) :: [] := by
  intro i hi
  refine ⟨?_, rfl, rfl⟩
  revert i
  decide

theorem witness_CommandEndsInDoneOrError :
    (ops 2 0 0 cold).busy = true ∧
    (∃ t, exec .nop (ops 2 0 0 cold) = .next t ∧ (!t.busy && t.status.done) = true) ∧
    (∃ t, exec .lenEnc (ops 2 0 0 cold) = .next t ∧ (!t.busy && t.status.err) = true) :=
  ⟨rfl, exists_of_check (by decide +kernel), exists_of_check (by decide +kernel)⟩

/-! ## Host port -/

theorem witness_BusyWriteIsDropped :
    (withTurns [.port (.write 0x030 8 5)] (ops 0 0 0 cold)).busy = true ∧
    accessTarget inst 0x030 8 = some (.reg .arg0) ∧ Target.reg .arg0 ≠ .reg .ctrl ∧
    accessTarget inst 0x20000000000 1 = some (.elem .src 0) ∧ accessTarget inst 0x128 8 = some .reserved := by
  decide +kernel

theorem witness_HostReads :
    (withTurns [.port (.read 0x050 8)] cold).busy = false ∧
    (withTurns [.port (.read 0x050 8)] (ops 0 0 0 cold)).busy = true ∧
    accessTarget inst 0x050 8 = some (.reg .res0) ∧ accessTarget inst 0x000 8 = some (.reg .id) ∧
    accessTarget inst 0x30000000000 1 = some (.elem .dst 0) := by
  decide +kernel

theorem witness_IdReadsConstant : (withTurns [.port (.read 0x000 8)] cold).pending = [.port (.read 0x000 8)] ∧
    (withTurns [.port (.write 0x000 8 1)] cold).phase = .idle := ⟨rfl, rfl⟩

theorem witness_StatusReadLayout : (withTurns [.port (.read 0x010 8)] cold).pending = [.port (.read 0x010 8)] := rfl

/-- The last element of each memory is named, and the address after it is not; the first and last registers, the offsets
between R21's blocks, and the malformed accesses. -/
theorem witness_AccessNamesWholeElement : inst.legal ∧
    (∀ m ∈ MemId.all, accessTarget inst (elemAddr m (m.count inst - 1)) m.width = some (.elem m (m.count inst - 1)) ∧
      accessTarget inst (elemAddr m (m.count inst)) m.width = none) ∧
    accessTarget inst 0x000 8 = some (.reg .id) ∧ accessTarget inst 0x120 8 = some (.reg .outLen) ∧
    (∀ off ∈ [0x070, 0x078, 0x0A8, 0x0B8, 0x128, 0xFF8], accessTarget inst off 8 = some .reserved) ∧
    accessTarget inst 0x028 4 = none ∧ accessTarget inst 0x02C 8 = none ∧ accessTarget inst 0x00100000002 4 = none ∧
    accessTarget inst 0x1000 8 = none := by
  decide +kernel

theorem witness_IdleWriteStores : cold.phase = .idle ∧
    accessTarget inst 0x048 8 = some (.reg .arg3) ∧ accessTarget inst 0x0A0 8 = some (.reg .cfgLazyDiv) ∧
    accessTarget inst 0x2000000000F 1 = some (.elem .src 15) ∧ accessTarget inst 0x001000007FC 4 = some (.elem .freq 511) ∧
    accessTarget inst 0x100 8 = some (.reg .tokCount) ∧ accessTarget inst 0x010 8 = some (.reg .status) := by
  decide +kernel

theorem witness_ReadOnlyTargetsIgnoreWrites : cold.phase = .idle ∧
    accessTarget inst 0x128 8 = some .reserved ∧ accessTarget inst 0x00200000FF8 8 = some (.elem .code 511) ∧
    accessTarget inst 0x00300000000 8 = some (.elem .node 0) ∧ accessTarget inst 0x000 8 = some (.reg .id) ∧
    accessTarget inst 0x120 8 = some (.reg .outLen) := by
  decide +kernel

theorem witness_SoftReset :
    (1 : Word).getLsbD 0 = true ∧ (2 : Word).getLsbD 0 = false ∧
    ∀ v : Word, (withTurns [.port (.write 0x008 8 v)] cold).phase = .idle ∧
      (withTurns [.port (.write 0x008 8 v)] (ops 0 0 0 cold)).phase ≠ .idle ∧
      (withTurns [.port (.write 0x008 8 v)] (ops 0 0 0 cold)).pending = .port (.write 0x008 8 v) :: [] :=
  ⟨by decide, by decide, fun _ => ⟨rfl, Phase.noConfusion, rfl⟩⟩

theorem witness_PowerOnState :
    Reg.arg0 ∉ [Reg.id, .cfgWindow, .cfgMinMatch, .cfgMaxMatch, .cfgMaxChain, .cfgLazyDiv] := by decide

/-! ## Bit stream -/

theorem witness_BwInitCompletes :
    (ops 32 0 0 cold).latchArg.r0.toNat ≤ cold.params.dstSize ∧ cold.params.dstSize < (ops 33 0 0 cold).latchArg.r0.toNat := by
  decide +kernel

/-- 7 pending bits and n = 57 at BW_POS = 24 just fit; one byte further they do not; n = 58. -/
theorem witness_BwBitsAppends :
    (let s := ops 0 57 0 (withWriter 24 7 0 0 cold)
     s.latchArg.r1.toNat ≤ 57 ∧ s.bw.pos.toNat + (s.bw.cnt.toNat + s.latchArg.r1.toNat) / 8 ≤ s.params.dstSize) ∧
    (let s := ops 0 57 0 (withWriter 25 7 0 0 cold)
     s.latchArg.r1.toNat ≤ 57 ∧ s.params.dstSize < s.bw.pos.toNat + (s.bw.cnt.toNat + s.latchArg.r1.toNat) / 8) ∧
    57 < (ops 0 58 0 cold).latchArg.r1.toNat := by
  decide +kernel

theorem witness_BwFlushCompletes :
    cold.bw.cnt.toNat = 0 ∧
    (let s := withWriter 31 1 1 0 cold
     0 < s.bw.cnt.toNat ∧ s.bw.pos.toNat + 1 ≤ s.params.dstSize ∧ s.params.legal) ∧
    (let s := withWriter 32 7 1 0 cold
     0 < s.bw.cnt.toNat ∧ s.params.dstSize < s.bw.pos.toNat + 1) := by
  decide +kernel

theorem witness_BrInitCompletes :
    (let s := ops 16 16 0 cold
     s.latchArg.r0.toNat ≤ s.latchArg.r1.toNat ∧ s.latchArg.r1.toNat ≤ s.params.srcSize) ∧
    (ops 5 4 0 cold).latchArg.r1.toNat < (ops 5 4 0 cold).latchArg.r0.toNat ∧
    cold.params.srcSize < (ops 0 17 0 cold).latchArg.r1.toNat := by
  decide +kernel

/-- The reader of R3: 65 bits left, then none. -/
def nineBytes (n : Nat) : State := ops n 0 0 (withReader 1 9 1 1 (withSrc [1, 2, 3, 4, 5, 6, 7, 8, 9] cold))

theorem witness_BrBitsTakesBits :
    (nineBytes 57).params.legal ∧ (nineBytes 57).readerInv ∧ (nineBytes 57).latchArg.r0.toNat ≤ 57 ∧
    57 ≤ (nineBytes 57).readerBits.length ∧
    (withReader 3 3 0 0 (ops 1 0 0 cold)).readerInv ∧ (withReader 3 3 0 0 (ops 1 0 0 cold)).readerBits.length < 1 ∧
    57 < (nineBytes 58).latchArg.r0.toNat := by
  decide +kernel

/-- W1 and R1: 5 in 3 bits and 0x1F in 5 bits make the byte 0xBF. -/
theorem witness_OutputLengthLaw : cold.params.legal ∧ (∀ x ∈ [(5, 3), (0x1F, 5)], x.2 ≤ 57) ∧
    ∃ a t, writeStream 0 [(5, 3), (0x1F, 5)] cold = .ok a t ∧ dstIs 0 [0xBF] t = true :=
  ⟨by decide, by decide, exists_of_ok (p := fun x => dstIs 0 [0xBF] x.2) (by decide +kernel)⟩

theorem witness_BitStreamRoundTrip : cold.params.legal ∧
    ∃ a t, writeStream 0 [(5, 3), (0x1F, 5)] cold = .ok a t ∧
      decide (0 + (t.bw.pos.toNat - 0) ≤ cold.params.srcSize ∧
        ∀ j, j < t.bw.pos.toNat - 0 → (withSrc [0xBF] cold).srcAt (0 + j) = t.dstAt (0 + j)) = true :=
  ⟨by decide, exists_of_ok (p := fun x => decide (0 + (x.2.bw.pos.toNat - 0) ≤ cold.params.srcSize ∧
        ∀ j, j < x.2.bw.pos.toNat - 0 → (withSrc [0xBF] cold).srcAt (0 + j) = x.2.dstAt (0 + j))) (by decide +kernel)⟩

theorem witness_ReaderPositionLaw : cold.params.legal ∧ (∀ n ∈ [3, 5], n ≤ 57) ∧
    ∃ vs t, readStream 0 1 [3, 5] (withSrc [0xBF] cold) = .ok vs t ∧ (vs == [5, 31]) = true :=
  ⟨by decide, by decide, exists_of_ok (p := fun x => x.1 == [5, 31]) (by decide +kernel)⟩

/-! ## Alphabet and matcher -/

theorem witness_AlphabetCommandsComplete :
    (∀ x ∈ [3, 258], 3 ≤ (ops x 0 0 cold).latchArg.r0.toNat ∧ (ops x 0 0 cold).latchArg.r0.toNat ≤ 258) ∧
    (∀ x ∈ [2, 259], (ops x 0 0 cold).latchArg.r0.toNat < 3 ∨ 258 < (ops x 0 0 cold).latchArg.r0.toNat) ∧
    (∀ x ∈ [257, 285], 257 ≤ (ops x 0 0 cold).latchArg.r0.toNat ∧ (ops x 0 0 cold).latchArg.r0.toNat ≤ 285) ∧
    (∀ x ∈ [256, 286], (ops x 0 0 cold).latchArg.r0.toNat < 257 ∨ 285 < (ops x 0 0 cold).latchArg.r0.toNat) ∧
    (∀ x ∈ [1, 32768], 1 ≤ (ops x 0 0 cold).latchArg.r0.toNat ∧
      (ops x 0 0 cold).latchArg.r0.toNat ≤ cold.cfg.window.toNat) ∧
    (∀ x ∈ [0, 32769], (ops x 0 0 cold).latchArg.r0.toNat < 1 ∨
      cold.cfg.window.toNat < (ops x 0 0 cold).latchArg.r0.toNat) ∧
    (∀ w ∈ [0, 65537], (Word.ofNat w).toNat < 1 ∨ 65536 < (Word.ofNat w).toNat) ∧
    (∀ x ∈ [300, 331], 300 ≤ (ops x 0 0 cold).latchArg.r0.toNat ∧ (ops x 0 0 cold).latchArg.r0.toNat ≤ 331) ∧
    (∀ x ∈ [299, 332], (ops x 0 0 cold).latchArg.r0.toNat < 300 ∨ 331 < (ops x 0 0 cold).latchArg.r0.toNat) := by
  decide +kernel

/-- A configuration with one bad register. -/
def badConfig (s : State) : State := { s with cfg := { s.cfg with lazyDiv := 0 } }

/-- The bounds of R33 at both ends, and each register out of them, in R211's order. -/
theorem witness_LzMatchCompletes :
    let cfgs := [(1, 3, 3, 1, 1), (65536, 258, 258, 65536, 65536)]
    (ops 16 0 0 cold).latchArg.r0.toNat ≤ cold.params.srcSize ∧
    cold.params.srcSize < (ops 17 0 0 cold).latchArg.r0.toNat ∧
    (∀ x ∈ cfgs, 1 ≤ x.1 ∧ x.1 ≤ 65536 ∧ 3 ≤ x.2.1 ∧ x.2.1 ≤ 258 ∧ 3 ≤ x.2.2.1 ∧ x.2.2.1 ≤ x.2.1 ∧
      1 ≤ x.2.2.2.1 ∧ x.2.2.2.1 ≤ 65536 ∧ 1 ≤ x.2.2.2.2 ∧ x.2.2.2.2 ≤ 65536) ∧
    (∀ w ∈ [0, 65537], ¬(1 ≤ (Word.ofNat w).toNat ∧ (Word.ofNat w).toNat ≤ 65536)) ∧
    (∀ x ∈ [2, 259], ¬(3 ≤ (Word.ofNat x).toNat ∧ (Word.ofNat x).toNat ≤ 258)) ∧
    (∀ m ∈ [2, 259], ¬(3 ≤ (Word.ofNat m).toNat ∧ (Word.ofNat m).toNat ≤ cold.cfg.maxMatch.toNat)) ∧
    (badConfig cold).lzConfig.firstBad = some (0xA0, 0) := by
  decide +kernel

/-- "aaaaa": at s = 1 the match has length 4 at distance 1; with CHAIN = 1 the chain of s = 3 stops at 2. -/
theorem witness_MatchIsLongestInChain :
    1 + 3 ≤ 5 ∧ 5 < 3 + 3 ∧
    findMatch cold.lzConfig (fun _ => 97) 5 1 = (4, 1) ∧ findMatch cold.lzConfig (fun i => i) 5 1 = (0, 0) ∧
    lzChain cold.lzConfig (fun _ => 97) 3 = [2, 1, 0] ∧
    lzChain { cold.lzConfig with maxChain := 1 } (fun _ => 97) 3 = [2] ∧ 1 ∉ [2] := by
  decide +kernel

theorem witness_TokenCountBound : cold.lzConfig.firstBad = none := by decide +kernel

theorem witness_TokenStreamRebuildsInput : cold.lzConfig.firstBad = none ∧ ∀ i : Nat, (fun _ => 97 : Nat → Nat) i < 256 :=
  ⟨by decide +kernel, fun _ => (by decide : 97 < 256)⟩

theorem witness_HashIndexYieldsChain : 1 ≤ cold.lzConfig.window := by decide +kernel

/-- Two states that differ in TOK, DST and SRC beyond n. -/
theorem witness_MatcherDeterminism :
    (∃ t, exec .lzMatch (ops 2 0 0 (withSrc [97, 97] cold)) = .next t ∧ completes 3 0 0 0 t = true) ∧
    (∃ t, exec .lzMatch (ops 2 0 0 (withSrc [97, 97, 98] (withToks [1, 2, 3, 4, 5] (coldDst 9)))) = .next t ∧
      completes 3 0 0 0 t = true) ∧
    (∀ i, i < 2 → (withSrc [97, 97] cold).srcAt i = (withSrc [97, 97, 98] (withToks [1, 2, 3, 4, 5] (coldDst 9))).srcAt i) ∧
    cold.params.legal ∧ (coldDst 9).params.legal ∧ cold.cfg = (coldDst 9).cfg :=
  ⟨exists_of_check (by decide +kernel), exists_of_check (by decide +kernel), by decide +kernel, by decide, by decide, rfl⟩

/-! ## Huffman encoder -/

/-- TOK holds N tokens 'A'. -/
def manyTokens (N : Nat) : State := { cold with tok := Mem.cells 0 (List.replicate N 65), tokCount := Word.ofNat N }

theorem manyTokens_syms (N : Nat) (h : N < 2 ^ 64) : (manyTokens N).tokens.map Token.sym = List.replicate N 65 := by
  have hN : (Word.ofNat N).toNat = N := by simpa [Word.ofNat] using h
  have ht : ∀ i, i < N → (manyTokens N).tokAt i = 65 := fun i hi => by
    simp [State.tokAt, manyTokens, Mem.get?_cells, hi]
  apply List.ext_getElem
  · simp [State.tokens, manyTokens, hN]
  · intro i h1 h2
    have hi : i < N := by simpa using h2
    simp [State.tokens, ht i hi]
    rfl

/-- A count reaches 2^32 - 1 and one more token comes. -/
theorem manyTokens_split (n : Nat) (h : n + 1 < 2 ^ 64) :
    (manyTokens (n + 1)).tokens.map Token.sym = List.replicate n 65 ++ 65 :: [] ∧
      (∀ x ∈ List.replicate n 65, inAlphabet x = true) ∧ (∀ x, (List.replicate n 65).count x ≤ n) ∧
      (List.replicate n 65).count 65 = n := by
  refine ⟨by rw [manyTokens_syms _ h, List.replicate_succ'], fun x hx => ?_, fun x => ?_, List.count_replicate_self⟩
  · rw [List.eq_of_mem_replicate hx]; rfl
  · simpa using List.count_le_length (a := x) (l := List.replicate n 65)

/-- Tokens that can be counted, an unassigned symbol, and 2^32 equal tokens. -/
theorem witness_FreqCountCounts :
    ((∀ x ∈ (withToks [65, 256] cold).tokens.map Token.sym, inAlphabet x = true) ∧
      ∀ x, ((withToks [65, 256] cold).tokens.map Token.sym).count x ≤ 2 ^ 32 - 1) ∧
    ((withToks [65, 290] cold).tokens.map Token.sym = [65] ++ 290 :: [] ∧ inAlphabet 290 = false) ∧
    (manyTokens (2 ^ 32 - 1 + 1)).tokens.map Token.sym = List.replicate (2 ^ 32 - 1) 65 ++ 65 :: [] ∧
    (∀ x ∈ List.replicate (2 ^ 32 - 1) 65, inAlphabet x = true) ∧
    (∀ x, (List.replicate (2 ^ 32 - 1) 65).count x ≤ 2 ^ 32 - 1) ∧
    (List.replicate (2 ^ 32 - 1) 65).count 65 = 2 ^ 32 - 1 := by
  refine ⟨⟨by decide +kernel, fun x => le_trans List.count_le_length (by decide +kernel)⟩, by decide +kernel, ?_⟩
  exact manyTokens_split (2 ^ 32 - 1) (by decide)

def usedOf (count : Nat → Half) : List Nat := (List.range 512).filter (fun x => inAlphabet x && decide (count x ≠ 0))
def badOf (count : Nat → Half) : List Nat := (List.range 512).filter (fun x => !inAlphabet x && decide (count x ≠ 0))

/-- FREQ[x] in such a state, which `decide` need not look up in the list of 512. -/
theorem freqAt_withFreq (counts : List (Nat × Nat)) (s : State) (x : Nat) (h : x < 512) :
    (withFreq counts s).freqAt x = BitVec.ofNat 32 ((counts.lookup x).getD 0) := by
  simp [State.freqAt, withFreq, Mem.get?_cells, h]

theorem usedOf_withFreq (counts : List (Nat × Nat)) (s : State) :
    usedOf (withFreq counts s).freqAt = usedOf (fun x => BitVec.ofNat 32 ((counts.lookup x).getD 0)) :=
  List.filter_congr fun x hx => by rw [freqAt_withFreq counts s x (List.mem_range.1 hx)]

theorem badOf_withFreq (counts : List (Nat × Nat)) (s : State) :
    badOf (withFreq counts s).freqAt = badOf (fun x => BitVec.ofNat 32 ((counts.lookup x).getD 0)) :=
  List.filter_congr fun x hx => by rw [freqAt_withFreq counts s x (List.mem_range.1 hx)]

/-- Two symbols, so one merge; an unassigned one; and none. -/
theorem witness_HuffBuildBuildsTree :
    usedOf (withFreq [(65, 1), (331, 2)] cold).freqAt = [65, 331] ∧
    badOf (withFreq [(65, 1), (331, 2)] cold).freqAt = [] ∧ 0 + 1 < [65, 331].length ∧
    badOf (withFreq [(65, 1), (290, 1)] cold).freqAt = [290] ∧
    usedOf (withFreq [] cold).freqAt = [] ∧ badOf (withFreq [] cold).freqAt = [] := by
  simp only [usedOf_withFreq, badOf_withFreq]
  decide +kernel

/-- The Scenario A tree. -/
def codeTreeA : CodeTree := .node (.node (.leaf 65) (.leaf 256)) (.node (.leaf 263) (.leaf 300))

/-- The caterpillar of HC3: depth d, leaf i to the left at depth i + 1. -/
def caterpillar : Nat → Nat → CodeTree
  | 0, i => .leaf i
  | d + 1, i => .node (.leaf i) (caterpillar d (i + 1))

/-- Its NODE arena: internal node i at index 2i, its leaf at 2i + 1. -/
def caterpillarNodes (d : Nat) : List Nat :=
  (List.range d).flatMap (fun i => [i + (2 * i + 1) * 2 ^ 16 + (2 * i + 2) * 2 ^ 32, i + 2 ^ 63]) ++ [d + 2 ^ 63]

theorem witness_HuffCodesCompletes :
    ((treeA cold).tree.valid = true ∧ (treeA cold).tree? = some codeTreeA ∧ ∀ x ∈ codeTreeA.paths, x.2.length ≤ 56) ∧
    ((withNodes 0 (caterpillarNodes 57) cold).tree.valid = true ∧
      (withNodes 0 (caterpillarNodes 57) cold).tree? = some (caterpillar 57 0) ∧
      (caterpillar 57 0).paths = (caterpillar 57 0).paths.take 56 ++
        (56, List.replicate 56 true ++ [false]) :: (caterpillar 57 0).paths.drop 57 ∧
      (∀ x ∈ (caterpillar 57 0).paths.take 56, x.2.length ≤ 56) ∧ 56 < (List.replicate 56 true ++ [false]).length) ∧
    cold.tree.valid = false := by
  decide +kernel

theorem witness_CodesArePrefixFree : (CodeTree.leaf 256).leaves = 1 := rfl

/-- 43 bits from BW_POS = 0 fit 32 bytes; from BW_POS = 5 they do not fit 9. -/
theorem witness_HuffSerializeAppends :
    (treeA cold).params.legal ∧ (treeA cold).writerInv ∧ (treeA cold).tree.valid = true ∧
    (treeA cold).tree? = some codeTreeA ∧
    (treeA cold).bw.pos.toNat + ((treeA cold).bw.cnt.toNat + (11 * codeTreeA.leaves - 1)) / 8 ≤ cold.params.dstSize ∧
    (withWriter 5 0 0 0 (treeA (coldDst 9))).params.legal ∧ (withWriter 5 0 0 0 (treeA (coldDst 9))).writerInv ∧
    (withWriter 5 0 0 0 (treeA (coldDst 9))).tree? = some codeTreeA ∧
    (coldDst 9).params.dstSize < 5 + (0 + (11 * codeTreeA.leaves - 1)) / 8 ∧ cold.tree.valid = false := by
  decide +kernel

/-- Each clause: two coded tokens with room; an uncoded second token; a code without room, and extra bits without room, after 7
pending bits at the end of DST. -/
theorem witness_HuffEncodeAppends :
    (let s := codesA (withToks [65, 256] cold)
     s.params.legal ∧ s.writerInv ∧ (∀ x ∈ s.tokens, (CodeEntry.ofWord (s.codeAt x.sym)).valid = true) ∧
      s.bw.pos.toNat + (s.bw.cnt.toNat + (s.tokens.flatMap s.tokenBits).length) / 8 ≤ s.params.dstSize) ∧
    (let s := codesA (withToks [65, 97] cold)
     s.tokens = [⟨65, 0, 0⟩] ++ ⟨97, 0, 0⟩ :: [] ∧ (CodeEntry.ofWord (s.codeAt 65)).valid = true ∧
      (CodeEntry.ofWord (s.codeAt 97)).valid = false ∧
      s.bw.pos.toNat + (s.bw.cnt.toNat + ([⟨65, 0, 0⟩].flatMap s.tokenBits).length) / 8 ≤ s.params.dstSize) ∧
    (let s := withWriter 32 5 0 0 (codesA (withToks [65, 256] cold))
     s.params.legal ∧ s.writerInv ∧ s.tokens = [⟨65, 0, 0⟩] ++ ⟨256, 0, 0⟩ :: [] ∧
      (CodeEntry.ofWord (s.codeAt 65)).valid = true ∧ (CodeEntry.ofWord (s.codeAt 256)).valid = true ∧
      32 + (5 + ([⟨65, 0, 0⟩].flatMap s.tokenBits).length) / 8 ≤ s.params.dstSize ∧
      s.params.dstSize < 32 + (5 + ([⟨65, 0, 0⟩].flatMap s.tokenBits).length + (CodeEntry.ofWord (s.codeAt 256)).len) / 8) ∧
    (let s := withWriter 32 5 0 0 (codesA (withToks [263 + 1 * 2 ^ 12] cold))
     s.writerInv ∧ s.tokens = [] ++ ⟨263, 1, 0⟩ :: [] ∧ (CodeEntry.ofWord (s.codeAt 263)).valid = true ∧
      32 + (5 + (CodeEntry.ofWord (s.codeAt 263)).len) / 8 ≤ s.params.dstSize ∧
      s.params.dstSize < 32 + (5 + (CodeEntry.ofWord (s.codeAt 263)).len + 1) / 8) := by
  decide +kernel

/-! ## Huffman decoder -/

/-- Every serialized tree has a leaf tag 1. -/
theorem true_mem_serialBits (tree : CodeTree) : true ∈ tree.serialBits := by
  induction tree with
  | leaf sym => simp [CodeTree.serialBits]
  | node l r hl _ => simp [CodeTree.serialBits, hl]

/-- The reader on the Scenario A container's tree and payload. -/
def readerA : State := withReader 9 16 0 0 (withSrc containerA cold)

theorem witness_HuffDeserializeRebuilds :
    (readerA.params.legal ∧ readerA.readerInv ∧
      readerA.readerBits = codeTreeA.serialBits ++ readerA.readerBits.drop 43 ∧
      codeTreeA.size ≤ readerA.params.nodeCap ∧ codeTreeA.symbolsFit = true) ∧
    ((withReader 0 1 0 0 (withSrc [0] cold)).readerInv ∧
      ∀ (tree : CodeTree) (rest : List Bool), (withReader 0 1 0 0 (withSrc [0] cold)).readerBits = tree.serialBits ++ rest →
        tree.symbolsFit = true → cold.params.nodeCap < tree.size) := by
  refine ⟨by decide +kernel, by decide +kernel, fun tree rest h _ => ?_⟩
  have hbits : (withReader 0 1 0 0 (withSrc [0] cold)).readerBits = List.replicate 8 false := by decide +kernel
  have hmem : true ∈ List.replicate 8 false := by
    rw [← hbits, h]
    exact List.mem_append_left _ (true_mem_serialBits tree)
  simp at hmem

theorem witness_HuffDecodeSymFollowsCode :
    (let s := withReader 0 1 0 0 (withSrc [0x9C] (treeA cold))
     s.params.legal ∧ s.readerInv ∧ s.tree.valid = true ∧ s.tree? = some codeTreeA ∧
      (263, [true, false]) ∈ codeTreeA.paths ∧ s.readerBits = [true, false] ++ s.readerBits.drop 2) ∧
    (let s := withReader 1 1 0 0 (treeA cold)
     s.readerInv ∧ s.tree.valid = true ∧ s.tree? = some codeTreeA ∧ ∀ x ∈ codeTreeA.paths, ¬x.2 <+: s.readerBits) ∧
    cold.tree.valid = false := by
  decide +kernel

/-! ## Container -/

/-- The least DST_SIZE the statement calls enough for n = 0, a DST that holds a container and one that does not hold the 11
bytes of the empty input's, and each way the operands can fail. -/
theorem witness_CompressCompletes :
    (∃ t, exec .compress (ops 4 0 0 (withSrc [97, 97, 97, 97] cold)) = .next t ∧ t.status.done = true) ∧
    (∃ t, exec .compress (ops 0 0 0 (coldDst 9)) = .next t ∧ raises 8 9 9 t = true) ∧
    (let s := ops 0 1 0xFFFFFFFF (coldDst 459)
     s.params.legal ∧ s.latchArg.r0.toNat ≤ s.params.srcSize ∧ s.latchArg.r1.toNat ≤ 1 ∧ s.latchArg.r2.toNat < 2 ^ 32 ∧
      (s.latchArg.r1.toNat = 0 → s.latchArg.r2.toNat = 0) ∧ s.lzConfig = ⟨32768, 3, 258, 128, 2⟩ ∧
      450 + 9 * (s.latchArg.r0.toNat + 1) ≤ s.params.dstSize) ∧
    cold.params.srcSize < (ops 17 0 0 cold).latchArg.r0.toNat ∧
    1 < (ops 16 2 0 cold).latchArg.r1.toNat ∧
    2 ^ 32 ≤ (ops 16 1 0x100000000 cold).latchArg.r2.toNat ∧
    ((ops 16 0 5 cold).latchArg.r1.toNat = 0 ∧ (ops 16 0 5 cold).latchArg.r2.toNat ≠ 0) ∧
    (badConfig (ops 16 0 0 cold)).lzConfig = ⟨32768, 3, 258, 128, 0⟩ := by
  refine ⟨(exists_of_check test_compress).imp fun t h => ⟨h.1, ?_⟩, exists_of_check test_compress_errors.1, by decide +kernel⟩
  simp only [completes, Bool.and_eq_true] at h
  exact h.2.1.1.1.1.1

/-- "aaaa" compresses to 16 bytes (V-CT1), which another instance holds in SRC. -/
def containerAaaa : List Nat := [0, 0, 0, 0, 0, 4, 0, 0, 0, 0x26, 0x1C, 0x01, 0x80, 0xE5, 0x85, 0xA0]

theorem witness_ContainerSizeLaw : cold.params.legal ∧
    ∃ t, exec .compress (ops 4 0 0 (withSrc [97, 97, 97, 97] cold)) = .next t ∧
      (completes 16 4 51 4 t && dstIs 0 containerAaaa t) = true :=
  ⟨by decide, exists_of_check test_compress⟩

/-- The copy of a container to SRC reads as DST does. -/
theorem srcAt_eq_dstAt_of_dstIs (u t : State) (bytes : List Nat) (hu : u.src = Mem.cells 0 (bytes.map (BitVec.ofNat 8)))
    (ht : dstIs 0 bytes t = true) (j : Nat) (hj : j < bytes.length)
    (hget : (Mem.cells 0 (bytes.map (BitVec.ofNat 8))).get? j = (bytes[j]?).map (BitVec.ofNat 8)) :
    u.srcAt j = t.dstAt j := by
  have h := List.all_eq_true.1 ht j (List.mem_range.2 hj)
  rw [Nat.zero_add, beq_iff_eq] at h
  rw [State.srcAt, State.dstAt, hu, hget, h, List.getElem?_eq_getElem hj]
  rfl

theorem witness_ContainerRoundTrip :
    let u := { ops 16 0 0 (withSrc containerAaaa cold) with latchCmd := 0x31 }
    u.params.legal ∧ u.phase = .latched ∧ u.pending = [] ∧
    ∃ t, exec .compress (ops 4 0 0 (withSrc [97, 97, 97, 97] cold)) = .next t ∧ t.status.done = true ∧
      u.latchArg.r0 = t.res.r0 ∧ t.res.r0.toNat ≤ u.params.srcSize ∧
      (ops 4 0 0 cold).latchArg.r0.toNat ≤ u.params.dstSize ∧ ∀ j, j < t.res.r0.toNat → u.srcAt j = t.dstAt j := by
  refine ⟨by decide, rfl, rfl, ?_⟩
  obtain ⟨t, ht, hp⟩ := exists_of_check test_compress
  obtain ⟨hc, hd⟩ := (Bool.and_eq_true _ _).mp hp
  simp only [completes, Bool.and_eq_true, beq_iff_eq] at hc
  have hr : t.res.r0 = 16 := by rw [hc.2]; rfl
  have hdone : t.status.done = true := hc.1.1.1.1
  refine ⟨t, ht, hdone, by rw [hr]; rfl, by rw [hr]; decide, by decide, fun j hj => ?_⟩
  rw [hr] at hj
  refine srcAt_eq_dstAt_of_dstIs _ t containerAaaa rfl hd j hj ?_
  revert j
  decide +kernel

/-- The container of a tree of 9 zero tags: no tree (V-DC "tree zeros"). -/
def zeroTree : State := ops 10 0 0 (withSrc [0, 0, 0, 0, 0, 0, 0, 0, 0, 0] cold)

theorem witness_DecompressStarts :
    cold.params.srcSize < (ops 17 0 0 cold).latchArg.r0.toNat ∧
    ((ops 8 0 0 cold).latchArg.r0.toNat ≤ cold.params.srcSize ∧ (ops 8 0 0 cold).latchArg.r0.toNat < 9) ∧
    (9 ≤ (ops 9 0 0 cold).latchArg.r0.toNat ∧ (coldDst 9).params.dstSize < (withSrc containerA (coldDst 9)).srcLE32 5) ∧
    (let s := ops 16 0 0 (withSrc containerA cold)
     s.latchArg.r0.toNat ≤ s.params.srcSize ∧ 9 ≤ s.latchArg.r0.toNat ∧ s.srcLE32 5 ≤ s.params.dstSize ∧
      s.srcBits 9 16 = codeTreeA.serialBits ++ (s.srcBits 9 16).drop 43 ∧ codeTreeA.size ≤ s.params.nodeCap ∧
      codeTreeA.symbolsFit = true) ∧
    (zeroTree.latchArg.r0.toNat ≤ zeroTree.params.srcSize ∧ 9 ≤ zeroTree.latchArg.r0.toNat ∧
      zeroTree.srcLE32 5 ≤ zeroTree.params.dstSize ∧
      ∀ (tree : CodeTree) (rest : List Bool), zeroTree.srcBits 9 10 = tree.serialBits ++ rest →
        tree.symbolsFit = true → zeroTree.params.nodeCap < tree.size) := by
  refine ⟨by decide +kernel, by decide +kernel, by decide +kernel, by decide +kernel, by decide +kernel, by decide +kernel,
    by decide +kernel, fun tree rest h _ => ?_⟩
  have hbits : zeroTree.srcBits 9 10 = List.replicate 8 false := by decide +kernel
  have hmem : true ∈ List.replicate 8 false := by
    rw [← hbits, h]
    exact List.mem_append_left _ (true_mem_serialBits tree)
  simp at hmem

/-! ## Stream symbols -/

theorem witness_LiteralAppends :
    (decoding 2 3 none cold).dec.pendingLen = none ∧ (decoding 2 3 none cold).outLen.toNat ≠ (decoding 2 3 none cold).dec.len ∧
    (decoding 3 3 none cold).outLen.toNat = (decoding 3 3 none cold).dec.len := by
  decide +kernel

theorem witness_EosCompletes :
    (decoding 3 3 none cold).dec.pendingLen = none ∧ (decoding 3 3 none cold).outLen.toNat = (decoding 3 3 none cold).dec.len ∧
    (decoding 2 3 none cold).outLen.toNat ≠ (decoding 2 3 none cold).dec.len := by
  decide +kernel

/-- Each length symbol has its row; its extra bits are there, or one bit short. -/
theorem witness_LengthSymbolsRead :
    (let s := decoding 0 32 none (withReader 0 1 0 0 (withSrc [0xFF] cold))
     s.params.legal ∧ s.readerInv ∧ s.dec.pendingLen = none ∧ (284, Instr.len284) ∈ lengthSymbolTable ∧
      codeToLengthBase 284 = some (227, 5) ∧ 5 ≤ s.readerBits.length) ∧
    (let s := decoding 0 32 none (withReader 1 1 4 15 cold)
     s.readerInv ∧ s.dec.pendingLen = none ∧ s.readerBits.length < 5) := by
  decide +kernel

/-- Distance 3 at OUT_LEN = 3: the least output that holds it, a length that just fits L, one more, one byte less, and
missing extra bits. -/
theorem witness_DistanceSymbolsCopy :
    (302, Instr.dist302) ∈ distanceSymbolTable ∧ codeToDistanceBase 302 = some (3, 0) ∧
    (let s := decoding 3 10 (some 7) cold
     s.params.legal ∧ s.readerInv ∧ s.dec.pendingLen = some 7 ∧ s.dec.len ≤ s.params.dstSize ∧
      0 ≤ s.readerBits.length ∧ 3 + valBits (s.readerBits.take 0) ≤ s.outLen.toNat ∧ s.outLen.toNat + 7 ≤ s.dec.len) ∧
    (let s := decoding 2 10 (some 7) cold
     s.outLen.toNat < 3 + valBits (s.readerBits.take 0)) ∧
    (let s := decoding 3 9 (some 7) cold
     3 + valBits (s.readerBits.take 0) ≤ s.outLen.toNat ∧ s.dec.len < s.outLen.toNat + 7) ∧
    ((304, Instr.dist304) ∈ distanceSymbolTable ∧ codeToDistanceBase 304 = some (5, 1) ∧ cold.readerBits.length < 1) := by
  decide +kernel

/-- The boundary symbols of each clause: 285, 286, 299, 300, 331, 332 and 511. -/
theorem witness_SymbolsOutOfPlaceRaise :
    (decoding 0 3 none cold).dec.pendingLen = none ∧ (decoding 0 3 (some 3) cold).dec.pendingLen ≠ none ∧
    (∀ sym ∈ [300, 331], sym < 512 ∧ 300 ≤ sym ∧ sym ≤ 331) ∧
    (∀ sym ∈ [0, 255, 256, 257, 285, 286, 299, 332, 511], sym < 512 ∧ (sym < 300 ∨ 331 < sym)) ∧
    (∀ sym ∈ [286, 299, 332, 511], sym < 512 ∧ ((286 ≤ sym ∧ sym ≤ 299) ∨ 332 ≤ sym)) ∧
    (∀ sym ∈ [300, 331], check (runSymbol sym (decoding 0 3 none cold)) (raises 3 0 sym) = true) ∧
    (∀ sym ∈ [0, 255, 256, 257, 285, 286, 299, 332, 511],
      check (runSymbol sym (decoding 0 3 (some 3) cold)) (raises 3 0 sym) = true) ∧
    (∀ sym ∈ [286, 299, 332, 511], check (runSymbol sym (decoding 0 3 none cold)) (raises 5 0 sym) = true) := by
  decide +kernel

/-! ## Whole-machine rules -/

/-- A running command in a state that meets both invariants, with a tree and a stream in place. -/
def runningA : State := ops 0 0 0 (treeA readerA)

theorem runningA_inv : runningA.Inv ∧ runningA.TreeInv ∧ runningA.busy = true ∧ runningA.pending = [] := by
  decide +kernel

theorem witness_StepKeepsInvariant : runningA.Inv ∧ ∃ t, step runningA = .next t ∧ completes 0 0 0 0 t = true :=
  ⟨runningA_inv.1, exists_of_check (by decide +kernel)⟩

theorem witness_StepKeepsTreeInvariant : runningA.Inv ∧ runningA.TreeInv ∧
    ∃ t, step runningA = .next t ∧ completes 0 0 0 0 t = true :=
  ⟨runningA_inv.1, runningA_inv.2.1, exists_of_check (by decide +kernel)⟩

theorem witness_PowerOnMeetsInvariants : inst.legal ∧ Config.Params.default.legal := by decide

theorem witness_EveryCommandEnds : runningA.Inv ∧ runningA.TreeInv ∧ runningA.busy = true ∧ runningA.pending = [] :=
  runningA_inv

theorem witness_ExecKeepsHostState :
    ∃ t, exec .huffBuild (ops 0 0 0 (withFreq [(65, 1), (256, 1), (263, 1), (300, 1)] cold)) = .next t :=
  next_of_check test_huffBuild

theorem witness_ExecKeepsOtherUnits : Instr.nop ∉ [Instr.bwInit, .bwBits, .bwFlush, .huffSerialize, .huffEncode, .compress] ∧
    ∃ t, exec .nop (ops 0 0 0 cold) = .next t ∧ completes 0 0 0 0 t = true :=
  ⟨by decide, exists_of_check (by decide +kernel)⟩

/-- Each storing instruction answers a next state somewhere, completing or raising. -/
theorem witness_DstStoresStayInPlace : inst.legal ∧
    (∃ t, exec .bwBits (ops 0x7F 7 0 (withWriter 9 1 1 9 (coldDst 9))) = .next t) ∧
    (∃ t, exec .bwFlush (ops 0 0 0 (withWriter 1 4 13 12 cold)) = .next t) ∧
    (∃ t, exec .huffSerialize (ops 0 0 0 (treeA cold)) = .next t) ∧
    (∃ t, exec .huffEncode (ops 0 0 0 (codesA (withToks [65, 97] cold))) = .next t) ∧
    (∃ t, exec .compress (ops 4 0 0 (withSrc [97, 97, 97, 97] cold)) = .next t) ∧
    (∃ t, exec (.lit 0x58) (decoding 2 3 none cold) = .next t) ∧
    (302, Instr.dist302) ∈ distanceSymbolTable ∧
    (∃ t, exec .dist302 (decoding 3 10 (some 7) { cold with dst := Mem.cells 0 [97, 98, 99] }) = .next t) :=
  ⟨by decide, next_of_check test_bwBits_full, next_of_check test_bwFlush, next_of_check test_huffSerialize,
    next_of_check test_huffEncode_errors.1, next_of_check test_compress, next_of_check test_lit, by decide +kernel,
    next_of_check test_distance_copies.1⟩

theorem witness_TableStoresStayInPlace : inst.legal ∧
    (∃ t, exec .lzMatch (ops 2 0 0 (withSrc [97, 97] cold)) = .next t) ∧
    (∃ t, exec .freqCount (ops 0 0 0 (withToks [65, 290] cold)) = .next t) ∧
    (∃ t, exec .huffCodes (ops 0 0 0 (treeA cold)) = .next t) ∧
    (∃ t, exec .huffBuild (ops 0 0 0 (withFreq [(65, 1), (256, 1), (263, 1), (300, 1)] cold)) = .next t) ∧
    (∃ t, exec .huffDeserialize (ops 0 0 0 (withReader 9 16 0 0 (withSrc containerA cold))) = .next t) ∧
    (∃ t, exec .decompress (ops 16 0 0 (withSrc containerA cold)) = .next t) ∧
    (∃ t, exec .compress (ops 4 0 0 (withSrc [97, 97, 97, 97] cold)) = .next t) :=
  ⟨by decide, witness_MatcherDeterminism.1.imp fun _ h => h.1, next_of_check test_freqCount_unassigned, next_of_check test_huffCodes,
    next_of_check test_huffBuild, next_of_check test_huffDeserialize, next_of_check test_decompress,
    next_of_check test_compress⟩

end Sys2Proof.Tests
end

section
/-! How a property passes through the sequencing of rules (R9), and a write of one element. -/

namespace Sys2Proof.Machine

variable {α β : Type}

/-! ## One element -/

/-- A write of one element, read back. -/
theorem getD_get?_put_singleton {w : Nat} (m : Mem w) (i : Nat) (v : BitVec w) (j : Nat) (d : BitVec w) :
    ((m.put i [v]).get? j).getD d = if j = i then v else (m.get? j).getD d := by
  rw [getD_get?_put]
  by_cases h : j = i
  · subst h; simp
  · rw [if_neg h, if_neg (by simp only [List.length_singleton]; omega)]

/-! ## Rules by value and state -/

/-- A rule that ends well has Q of its value and state; one that raises has P of its state. -/
def Res.Gives (Q : α → State → Prop) (P : State → Prop) (r : Res α) : Prop :=
  (∀ a s, r = .ok a s → Q a s) ∧ ∀ e pos sym s, r = .raised e pos sym s → P s

section
variable {Q : α → State → Prop} {P R : State → Prop} {r r' : Res α}

theorem Res.Gives.of_ok {a : α} {s : State} (h : Q a s) : (Res.ok a s).Gives Q P :=
  ⟨fun _ _ he => (by cases he; exact h), fun _ _ _ _ he => (by cases he)⟩

theorem Res.Gives.of_raised {e : EngineError} {pos sym : Nat} {s : State} (h : P s) : (Res.raised e pos sym s).Gives Q P :=
  ⟨fun _ _ he => (by cases he), fun _ _ _ _ he => (by cases he; exact h)⟩

theorem Res.Gives.of_stuck {f : Fault} : (Res.stuck f).Gives Q P :=
  ⟨fun _ _ he => (by cases he), fun _ _ _ _ he => (by cases he)⟩

theorem Res.Gives.bind {Q' : β → State → Prop} {k : α → State → Res β} (hr : r.Gives Q P)
    (hk : ∀ a s, Q a s → (k a s).Gives Q' P) : (r.bind k).Gives Q' P := by
  cases r with
  | ok a s => exact hk a s (hr.1 a s rfl)
  | raised e pos sym s => exact .of_raised (hr.2 e pos sym s rfl)
  | stuck f => exact .of_stuck

/-- An error keeps its state when it is reported as another one (R271, R273, R298). -/
theorem Res.Gives.raiseAs (hr : r.Gives Q P) (e : EngineError) (pos sym : Nat) : (r.raiseAs e pos sym).Gives Q P := by
  cases r with
  | ok a s => exact hr
  | raised e' p q s => exact .of_raised (hr.2 e' p q s rfl)
  | stuck f => exact .of_stuck

theorem Res.Gives.atOutLen (hr : r.Gives Q P) : r.atOutLen.Gives Q P := by
  cases r with
  | ok a s => exact hr
  | raised e pos sym s => exact .of_raised (hr.2 e pos sym s rfl)
  | stuck f => exact .of_stuck

theorem Res.Gives.ite {c : Prop} [Decidable c] (h : c → r.Gives Q P) (h' : ¬c → r'.Gives Q P) :
    (if c then r else r').Gives Q P := by
  split
  · exact h ‹_›
  · exact h' ‹_›

theorem Res.Gives.mono {Q' : α → State → Prop} (hr : r.Gives Q P) (hQ : ∀ a s, Q a s → Q' a s) (hP : ∀ s, P s → R s) :
    r.Gives Q' R :=
  ⟨fun a s h => hQ a s (hr.1 a s h), fun e pos sym s h => hP s (hr.2 e pos sym s h)⟩

theorem Res.Gives.and_all (h : r.Gives Q P) (h' : r.All R) : r.Gives (fun a s => Q a s ∧ R s) fun s => P s ∧ R s :=
  ⟨fun a s hs => ⟨h.1 a s hs, h'.1 a s hs⟩, fun e pos sym s hs => ⟨h.2 e pos sym s hs, h'.2 e pos sym s hs⟩⟩

theorem Res.Gives.all (hr : r.Gives Q P) (hQ : ∀ a s, Q a s → P s) : r.All P :=
  hr.mono hQ fun _ h => h

theorem Res.All.gives (hr : r.All P) : r.Gives (fun _ => P) P := hr

theorem Res.All.and (h : r.All P) (h' : r.All R) : r.All fun s => P s ∧ R s := h.gives.and_all h'

theorem Res.All.raiseAs (hr : r.All P) (e : EngineError) (pos sym : Nat) : (r.raiseAs e pos sym).All P :=
  hr.gives.raiseAs e pos sym

theorem Res.All.atOutLen (hr : r.All P) : r.atOutLen.All P := hr.gives.atOutLen

theorem Res.All.ite {c : Prop} [Decidable c] (h : c → r.All P) (h' : ¬c → r'.All P) : (if c then r else r').All P :=
  Res.Gives.ite h h'

/-- The results of a command do not change where its rule ends. -/
theorem Res.All.results (hr : r.All P) (f : α → State → β) : (r.bind fun a t => .ok (f a t) t).All P :=
  hr.bind fun _ _ ht => .of_ok rfl ht

end

/-! ## The end of a rule -/

/-- What done and raise make of the states in which a command's rule ends, the state after it has (R143, R321). -/
theorem Res.All.finish {P R : State → Prop} {r : Res Results} {t : State} (hr : r.All P) (h : r.finish = .next t)
    (hdone : ∀ u rs, P u → R (u.complete rs)) (hraise : ∀ u e pos sym, P u → R (u.raise e pos sym)) : R t := by
  rcases (Res.finish_eq_next_iff r t).1 h with ⟨rs, u, hu, rfl⟩ | ⟨e, pos, sym, u, hu, rfl⟩
  · exact hdone u rs (hr.1 rs u hu)
  · exact hraise u e pos sym (hr.2 e pos sym u hu)

/-- A step of DECOMPRESS that answers a next state went on, or raised (R295). -/
theorem Res.Gives.goOn {Q : Unit → State → Prop} {P R : State → Prop} {r : Res Unit} {t : State} (hr : r.Gives Q P)
    (h : r.goOn = .next t) (hok : ∀ u, Q () u → R u) (hraise : ∀ u e pos sym, P u → R (u.raise e pos sym)) : R t := by
  rcases (Res.goOn_eq_next_iff r t).1 h with hu | ⟨e, pos, sym, u, hu, rfl⟩
  · exact hok t (hr.1 () t hu)
  · exact hraise u e pos sym (hr.2 e pos sym u hu)

end Sys2Proof.Machine
end

section
/-! What each instruction may change: one inversion lemma over exec, from which the frames of R28, R40, R51 and R80 follow. -/

namespace Sys2Proof.Machine

/-! ## The end of an instruction -/

/-- `t` is `u` but for what done and raise write (R143, R321) and the decode loop's own variables: RES, ERR_POS, ERR_SYM,
STATUS without WDROP, DECOMPRESS's variables, and the phase, which may have become IDLE. -/
def State.SameButOutcome (u t : State) : Prop :=
  ∃ res errPos errSym status phase dec,
    t = { u with res := res, errPos := errPos, errSym := errSym, status := status, phase := phase, dec := dec } ∧
    status.wdrop = u.status.wdrop ∧ (phase = .idle ∨ phase = u.phase)

theorem State.SameButOutcome.refl (u : State) : u.SameButOutcome u := ⟨_, _, _, _, _, _, rfl, rfl, .inr rfl⟩

theorem State.SameButOutcome.complete (u : State) (r : Results) : u.SameButOutcome (u.complete r) :=
  ⟨_, _, _, _, _, _, rfl, rfl, .inl rfl⟩

theorem State.SameButOutcome.raise (u : State) (e : EngineError) (pos sym : Nat) :
    u.SameButOutcome (u.raise e pos sym) := ⟨_, _, _, _, _, _, rfl, rfl, .inl rfl⟩

theorem State.SameButOutcome.setDec (u : State) (d : DecodeVars) : u.SameButOutcome { u with dec := d } :=
  ⟨_, _, _, _, _, _, rfl, rfl, .inr rfl⟩

theorem State.SameButOutcome.setPhase {u t : State} (h : u.SameButOutcome t) (p : Phase) (d : DecodeVars) :
    State.SameButOutcome { u with phase := p } { t with phase := p, dec := d } := by
  obtain ⟨_, _, _, _, _, _, rfl, hw, -⟩ := h
  exact ⟨_, _, _, _, _, _, rfl, hw, .inr rfl⟩

theorem State.SameButOutcome.trans {s t u : State} (h : s.SameButOutcome t) (h' : t.SameButOutcome u) :
    s.SameButOutcome u := by
  obtain ⟨_, _, _, _, _, _, rfl, hw, hp⟩ := h
  obtain ⟨_, _, _, _, _, _, rfl, hw', hp'⟩ := h'
  exact ⟨_, _, _, _, _, _, rfl, hw'.trans hw, hp'.elim .inl fun h => hp.imp h.trans h.trans⟩

/-! ## Which fields a rule may change -/

theorem writeBits_sameButWriter (v n : Nat) (s : State) :
    (writeBits v n s).All fun t => ∃ dst bw, t = { s with dst := dst, bw := bw } := by
  rcases writeBits_cases v n s with ⟨t, h⟩ | ⟨-, h⟩
  · exact .of_ok h ⟨_, _, (writeBits_ok v n s t h).2⟩
  · exact .of_raised h ⟨_, _, rfl⟩

theorem flush_sameButWriter (s : State) : (flush s).All fun t => ∃ dst bw, t = { s with dst := dst, bw := bw } := by
  rcases flush_cases s with ⟨dst, bw, h⟩ | h
  · exact .of_ok h ⟨_, _, rfl⟩
  · exact .of_raised h ⟨_, _, rfl⟩

theorem huffSerialize_sameButWriter (s : State) :
    (huffSerialize s).All fun t => ∃ dst bw, t = { s with dst := dst, bw := bw } := by
  rcases huffSerialize_cases s with ⟨k, dst, bw, h⟩ | ⟨e, pos, sym, dst, bw, h⟩ | ⟨-, -, h⟩
  · exact .of_ok h ⟨_, _, rfl⟩
  · exact .of_raised h ⟨_, _, rfl⟩
  · exact .of_stuck h

theorem huffEncode_sameButWriter (s : State) :
    (huffEncode s).All fun t => ∃ dst bw, t = { s with dst := dst, bw := bw } := by
  rcases encodeTokens_cases s.tokens 0 0 s with ⟨r, dst, bw, h⟩ | ⟨e, pos, sym, dst, bw, h⟩
  · exact .of_ok h ⟨_, _, rfl⟩
  · exact .of_raised h ⟨_, _, rfl⟩

theorem bwInit_sameButBw (o : Nat) (s : State) : (bwInit o s).All fun t => ∃ bw, t = { s with bw := bw } := by
  unfold bwInit
  exact .ite (fun _ => .of_raised rfl ⟨_, rfl⟩) fun _ => .of_ok rfl ⟨_, rfl⟩

theorem brInit_sameButReader (a e : Nat) (s : State) : (brInit a e s).All fun t => ∃ br, t = { s with br := br } := by
  unfold brInit
  exact .ite (fun _ => .of_raised rfl ⟨_, rfl⟩) fun _ => .of_ok rfl ⟨_, rfl⟩

theorem readBits_sameButReader (n : Nat) (s : State) : (readBits n s).All fun t => ∃ br, t = { s with br := br } := by
  rcases readBits_cases n s with ⟨v, br, h⟩ | h
  · exact .of_ok h ⟨_, rfl⟩
  · exact .of_raised h ⟨_, rfl⟩

theorem decodeSym_sameButReader (s : State) : (decodeSym s).All fun t => ∃ br, t = { s with br := br } := by
  rcases decodeSym_cases s with ⟨r, br, h⟩ | ⟨sym, br, h⟩
  · exact .of_ok h ⟨_, rfl⟩
  · exact .of_raised h ⟨_, rfl⟩

theorem lzMatch_sameButTokens (n : Nat) (s : State) :
    (lzMatch n s).All fun t => ∃ tok count, t = { s with tok := tok, tokCount := count } := by
  rcases lzMatch_cases n s with ⟨-, h⟩ | ⟨-, off, v, -, h⟩ | ⟨-, -, h⟩
  · exact .of_raised h ⟨_, _, rfl⟩
  · exact .of_raised h ⟨_, _, rfl⟩
  · exact .of_ok h ⟨_, _, rfl⟩

theorem freqCount_sameButFreq (s : State) : (freqCount s).All fun t => ∃ freq, t = { s with freq := freq } := by
  rcases freqCount_cases s with ⟨f, -, h⟩ | ⟨e, i, sym, -, h⟩
  · exact .of_ok h ⟨_, rfl⟩
  · exact .of_raised h ⟨_, rfl⟩

theorem huffBuild_sameButTree (s : State) :
    (huffBuild s).All fun t => ∃ node tree, t = { s with node := node, tree := tree } := by
  rcases huffBuild_cases s with ⟨node, root, nodes, k, h⟩ | ⟨e, sym, h⟩
  · exact .of_ok h ⟨_, _, rfl⟩
  · exact .of_raised h ⟨_, _, rfl⟩

theorem huffCodes_sameButCode (s : State) : (huffCodes s).All fun t => ∃ code, t = { s with code := code } := by
  rcases huffCodes_cases s with ⟨r, code, h⟩ | ⟨e, pos, sym, h⟩ | ⟨-, -, h⟩
  · exact .of_ok h ⟨_, rfl⟩
  · exact .of_raised h ⟨_, rfl⟩
  · exact .of_stuck h

theorem huffDeserialize_sameButReadTree (s : State) :
    (huffDeserialize s).All fun t => ∃ br node tree, t = { s with br := br, node := node, tree := tree } := by
  rcases huffDeserialize_cases s with ⟨k, br, node, h⟩ | ⟨sym, br, node, h⟩
  · exact .of_ok h ⟨_, _, _, rfl⟩
  · exact .of_raised h ⟨_, _, _, rfl⟩

theorem copyBack_sameButOutput (len dist : Nat) (s : State) : (copyBack len dist s).All fun t =>
    ∃ dst outLen dec, t = { s with dst := dst, outLen := outLen, dec := dec } := by
  rcases copyBack_cases len dist s with ⟨-, h⟩ | ⟨-, -, h⟩ | ⟨-, -, dst, outLen, h⟩
  · exact .of_raised h ⟨_, _, _, rfl⟩
  · exact .of_raised h ⟨_, _, _, rfl⟩
  · exact .of_ok h ⟨_, _, _, rfl⟩

/-- What COMPRESS keeps, field by field (R290, R355). -/
theorem State.SameButCompress.fields {s u : State} (h : s.SameButCompress u) :
    u = { s with tok := u.tok, tokCount := u.tokCount, freq := u.freq, code := u.code, node := u.node, tree := u.tree,
                 dst := u.dst, bw := u.bw } := by
  cases u
  simpa [State.SameButCompress, State.keptByCompress, and_assoc] using h

/-! ## The instructions -/

/-- Which fields instruction `i` may change, from `s` to `t`, beside those of SameButOutcome (R51): none, or those of its units. -/
inductive InstrChanges (s t : State) : Instr → Prop
  | outcome {i : Instr} (h : s.SameButOutcome t) : InstrChanges s t i
  | bwInit (bw : BitWriter) (h : State.SameButOutcome { s with bw := bw } t) : InstrChanges s t .bwInit
  | writer {i : Instr} (hi : i ∈ [.bwBits, .bwFlush, .huffSerialize, .huffEncode]) (dst : Mem 8) (bw : BitWriter)
      (h : State.SameButOutcome { s with dst := dst, bw := bw } t) : InstrChanges s t i
  | reader {i : Instr} (hi : i ∈ [.brInit, .brBits, .huffDecodeSym] ∨ ∃ k, (k, i) ∈ lengthSymbolTable) (br : BitReader)
      (h : State.SameButOutcome { s with br := br } t) : InstrChanges s t i
  | tokens (tok : Mem 32) (count : Word) (h : State.SameButOutcome { s with tok := tok, tokCount := count } t) :
      InstrChanges s t .lzMatch
  | freq (freq : Mem 32) (h : State.SameButOutcome { s with freq := freq } t) : InstrChanges s t .freqCount
  | code (code : Mem 64) (h : State.SameButOutcome { s with code := code } t) : InstrChanges s t .huffCodes
  | build (node : Mem 64) (tree : TreeRegs) (h : State.SameButOutcome { s with node := node, tree := tree } t) :
      InstrChanges s t .huffBuild
  | deserialize (br : BitReader) (node : Mem 64) (tree : TreeRegs)
      (h : State.SameButOutcome { s with br := br, node := node, tree := tree } t) : InstrChanges s t .huffDeserialize
  | compress (tok freq : Mem 32) (count : Word) (code node : Mem 64) (tree : TreeRegs) (dst : Mem 8) (bw : BitWriter)
      (h : State.SameButOutcome { s with
        tok := tok, tokCount := count, freq := freq, code := code, node := node, tree := tree, dst := dst, bw := bw } t) :
      InstrChanges s t .compress
  | decompress (br : BitReader) (node : Mem 64) (tree : TreeRegs) (phase : Phase)
      (h : State.SameButOutcome { s with outLen := 0, br := br, node := node, tree := tree, phase := phase } t) :
      InstrChanges s t .decompress
  | literal (v : Byte) (dst : Mem 8) (outLen : Word)
      (h : State.SameButOutcome { s with dst := dst, outLen := outLen } t) : InstrChanges s t (.lit v)
  | distance {i : Instr} (hi : ∃ k, (k, i) ∈ distanceSymbolTable) (br : BitReader) (dst : Mem 8) (outLen : Word)
      (h : State.SameButOutcome { s with br := br, dst := dst, outLen := outLen } t) : InstrChanges s t i

/-- Where a rule ends, done and raise change the outcome alone. -/
theorem Res.All.finish_sameButOutcome {P : State → Prop} {r : Res Results} {t : State} (hr : r.All P)
    (h : r.finish = .next t) : ∃ u, P u ∧ u.SameButOutcome t :=
  hr.finish (R := fun t => ∃ u, P u ∧ u.SameButOutcome t) h (fun u rs hu => ⟨u, hu, .complete u rs⟩)
    fun u e pos sym hu => ⟨u, hu, .raise u e pos sym⟩

theorem Res.All.goOn_sameButOutcome {P : State → Prop} {r : Res Unit} {t : State} (hr : r.All P)
    (h : r.goOn = .next t) : ∃ u, P u ∧ u.SameButOutcome t :=
  hr.gives.goOn (R := fun t => ∃ u, P u ∧ u.SameButOutcome t) h (fun u hu => ⟨u, hu, .refl u⟩)
    fun u e pos sym hu => ⟨u, hu, .raise u e pos sym⟩

theorem exec_lit_changes {v : Byte} {s t : State} (h : exec (.lit v) s = .next t) : InstrChanges s t (.lit v) := by
  change execLit v s = _ at h
  unfold execLit asPrimary at h
  split at h
  · cases h; exact .outcome (.raise s _ _ _)
  · split at h
    · cases h; exact .outcome (.raise s _ _ _)
    · cases h; exact .literal v _ _ (.refl _)

theorem exec_eos_changes {s t : State} (h : exec .eos s = .next t) : InstrChanges s t .eos := by
  change execEos s = _ at h
  unfold execEos asPrimary at h
  split at h
  · cases h; exact .outcome (.raise s _ _ _)
  · split at h
    · cases h; exact .outcome (.raise s _ _ _)
    · cases h; exact .outcome (.complete s _)

/-- A length symbol changes BR_* and the length that waits (R298). -/
theorem execLength_changes {k : Nat} {s t : State} (h : execLength k s = .next t) :
    ∃ br, State.SameButOutcome { s with br := br } t := by
  unfold execLength asPrimary at h
  split at h
  · cases h; exact ⟨s.br, .raise s _ _ _⟩
  · split at h
    · cases h; exact ⟨s.br, .raise s _ _ _⟩
    · rename_i le _
      rcases readBits_cases le s with ⟨x, br, hr⟩ | hr
      · rw [hr] at h; cases h; exact ⟨br, .setDec _ _⟩
      · rw [hr] at h; cases h; exact ⟨s.br, .raise s _ _ _⟩

/-- A distance symbol changes BR_*, DST, OUT_LEN and the length that waits (R298). -/
theorem execDistance_changes {k : Nat} {s t : State} (h : execDistance k s = .next t) :
    ∃ br dst outLen, State.SameButOutcome { s with br := br, dst := dst, outLen := outLen } t := by
  unfold execDistance at h
  split at h
  · cases h; exact ⟨s.br, s.dst, s.outLen, .raise s _ _ _⟩
  · split at h
    · cases h; exact ⟨s.br, s.dst, s.outLen, .raise s _ _ _⟩
    · rename_i len _ _ db de _
      rcases readBits_cases de s with ⟨x, br, hr⟩ | hr
      · rw [hr] at h
        obtain ⟨_, ⟨dst, outLen, dec, rfl⟩, ht⟩ :=
          (copyBack_sameButOutput len (db + x) { s with br := br }).goOn_sameButOutcome h
        exact ⟨br, dst, outLen, .trans (.setDec _ _) ht⟩
      · rw [hr] at h; cases h; exact ⟨s.br, s.dst, s.outLen, .raise s _ _ _⟩

/-- A length or a distance symbol changes what its table's rule changes. -/
theorem exec_symbol_changes {i : Instr} {s t : State}
    (hi : i ∈ lengthSymbolTable.map Prod.snd ∨ i ∈ distanceSymbolTable.map Prod.snd) (h : exec i s = .next t) :
    InstrChanges s t i := by
  rcases hi with hi | hi
  · obtain ⟨⟨k, _⟩, hk, rfl⟩ := List.mem_map.1 hi
    rw [exec_of_mem_lengthSymbolTable s _ hk] at h
    obtain ⟨br, ht⟩ := execLength_changes h
    exact .reader (.inr ⟨k, hk⟩) br ht
  · obtain ⟨⟨k, _⟩, hk, rfl⟩ := List.mem_map.1 hi
    rw [exec_of_mem_distanceSymbolTable s _ hk] at h
    obtain ⟨br, dst, outLen, ht⟩ := execDistance_changes h
    exact .distance ⟨k, hk⟩ br dst outLen ht

/-- DECOMPRESS changes OUT_LEN, BR_*, NODE and TREE_*, and enters the decode loop (R294). -/
theorem decompress_changes (m : Nat) (s : State) : (decompress m s).All fun t => ∃ br node tree phase,
    State.SameButOutcome { s with outLen := 0, br := br, node := node, tree := tree, phase := phase } t := by
  have hraise : ∃ br node tree phase, State.SameButOutcome
      { s with outLen := 0, br := br, node := node, tree := tree, phase := phase } { s with outLen := 0 } :=
    ⟨s.br, s.node, s.tree, s.phase, .refl _⟩
  have hequal : ((brInit 9 m { s with outLen := 0 }).bind fun _ u => huffDeserialize u).All fun t =>
      ∃ br node tree, t = { s with outLen := 0, br := br, node := node, tree := tree } :=
    ((brInit_sameButReader 9 m _).mono fun _ ⟨br, hu⟩ => ⟨br, s.node, s.tree, hu⟩).bind fun _ u ⟨_, _, _, hu⟩ =>
      (huffDeserialize_sameButReadTree u).mono fun _ ⟨br, node, tree, ht⟩ => ⟨br, node, tree, by rw [ht, hu]⟩
  have hread := hequal.mono (Q := fun t => ∃ br node tree phase, State.SameButOutcome
    { s with outLen := 0, br := br, node := node, tree := tree, phase := phase } t)
    fun _ ⟨br, node, tree, hu⟩ => ⟨br, node, tree, s.phase, hu ▸ .refl _⟩
  refine .ite (fun _ => .of_raised rfl hraise) fun _ => .ite (fun _ => .of_raised rfl hraise) fun _ =>
    .ite (fun _ => .of_raised rfl hraise) fun _ => hread.atOutLen.bind ?_
  rintro _ u ⟨br, node, tree, phase, hu⟩
  exact .of_ok rfl ⟨br, node, tree, .decoding, hu.setPhase _ _⟩

/-- What a running command or symbol may change (R51). -/
theorem exec_changes {i : Instr} {s t : State} (h : exec i s = .next t) : InstrChanges s t i := by
  have unchanged {r : Res Results} (hr : r.All (· = s)) (h : r.finish = .next t) : InstrChanges s t i := by
    obtain ⟨u, rfl, ht⟩ := hr.finish_sameButOutcome h
    exact .outcome ht
  cases i with
  | lit v => exact exec_lit_changes h
  | eos => exact exec_eos_changes h
  | nop => exact unchanged (.of_ok rfl rfl) h
  | lenEnc => exact unchanged (.ite (fun _ => .of_raised rfl rfl) fun _ => .of_ok rfl rfl) h
  | distEnc =>
    exact unchanged (.ite (fun _ => .of_raised rfl rfl) fun _ =>
      .ite (fun _ => .of_raised rfl rfl) fun _ => .of_ok rfl rfl) h
  | lenDec =>
    refine unchanged ?_ h
    split
    · exact .of_raised rfl rfl
    · exact .of_ok rfl rfl
  | distDec =>
    refine unchanged ?_ h
    split
    · exact .of_raised rfl rfl
    · exact .of_ok rfl rfl
  | bwInit =>
    obtain ⟨_, ⟨bw, rfl⟩, ht⟩ := ((bwInit_sameButBw _ s).results _).finish_sameButOutcome h
    exact .bwInit bw ht
  | bwBits =>
    obtain ⟨_, ⟨dst, bw, rfl⟩, ht⟩ := (Res.All.ite (fun _ => .of_raised rfl ⟨s.dst, s.bw, rfl⟩)
      fun _ => (writeBits_sameButWriter _ _ s).results _).finish_sameButOutcome h
    exact .writer (by simp) dst bw ht
  | bwFlush =>
    obtain ⟨_, ⟨dst, bw, rfl⟩, ht⟩ := ((flush_sameButWriter s).results _).finish_sameButOutcome h
    exact .writer (by simp) dst bw ht
  | huffSerialize =>
    obtain ⟨_, ⟨dst, bw, rfl⟩, ht⟩ := ((huffSerialize_sameButWriter s).results _).finish_sameButOutcome h
    exact .writer (by simp) dst bw ht
  | huffEncode =>
    obtain ⟨_, ⟨dst, bw, rfl⟩, ht⟩ := ((huffEncode_sameButWriter s).results _).finish_sameButOutcome h
    exact .writer (by simp) dst bw ht
  | brInit =>
    obtain ⟨_, ⟨br, rfl⟩, ht⟩ := ((brInit_sameButReader _ _ s).results _).finish_sameButOutcome h
    exact .reader (by simp) br ht
  | brBits =>
    obtain ⟨_, ⟨br, rfl⟩, ht⟩ := (Res.All.ite (fun _ => .of_raised rfl ⟨s.br, rfl⟩)
      fun _ => (readBits_sameButReader _ s).results _).finish_sameButOutcome h
    exact .reader (by simp) br ht
  | huffDecodeSym =>
    obtain ⟨_, ⟨br, rfl⟩, ht⟩ := (Res.All.ite (fun _ => .of_raised rfl ⟨s.br, rfl⟩)
      fun _ => (decodeSym_sameButReader s).results _).finish_sameButOutcome h
    exact .reader (by simp) br ht
  | lzMatch =>
    obtain ⟨_, ⟨tok, count, rfl⟩, ht⟩ := ((lzMatch_sameButTokens _ s).results _).finish_sameButOutcome h
    exact .tokens tok count ht
  | freqCount =>
    obtain ⟨_, ⟨freq, rfl⟩, ht⟩ := ((freqCount_sameButFreq s).results _).finish_sameButOutcome h
    exact .freq freq ht
  | huffBuild =>
    rw [exec, execHuffBuild] at h
    obtain ⟨_, ⟨node, tree, rfl⟩, ht⟩ := ((huffBuild_sameButTree s).results _).finish_sameButOutcome h
    exact .build node tree ht
  | huffCodes =>
    obtain ⟨_, ⟨code, rfl⟩, ht⟩ := ((huffCodes_sameButCode s).results _).finish_sameButOutcome h
    exact .code code ht
  | huffDeserialize =>
    obtain ⟨_, ⟨br, node, tree, rfl⟩, ht⟩ := ((huffDeserialize_sameButReadTree s).results _).finish_sameButOutcome h
    exact .deserialize br node tree ht
  | compress =>
    obtain ⟨u, hu, ht⟩ := ((compress_frame s.arg0 s.arg1 s.arg2 s).results _).finish_sameButOutcome h
    exact .compress u.tok u.freq u.tokCount u.code u.node u.tree u.dst u.bw (hu.fields ▸ ht)
  | decompress =>
    obtain ⟨u, ⟨br, node, tree, phase, hu⟩, ht⟩ := (decompress_changes _ s).goOn_sameButOutcome h
    exact .decompress br node tree phase (hu.trans ht)
  | _ => exact exec_symbol_changes (by decide) h

end Sys2Proof.Machine
end

section
/-! Which units and which host state an instruction leaves alone (R28, R40, R51, R80). -/

namespace Sys2Proof.Machine

/-! ## Which units an instruction leaves alone -/

section
variable {u t : State} (h : u.SameButOutcome t)
include h

theorem State.SameButOutcome.bw : t.bw = u.bw := by obtain ⟨_, _, _, _, _, _, rfl, -⟩ := h; rfl
theorem State.SameButOutcome.br : t.br = u.br := by obtain ⟨_, _, _, _, _, _, rfl, -⟩ := h; rfl
theorem State.SameButOutcome.tokCount : t.tokCount = u.tokCount := by obtain ⟨_, _, _, _, _, _, rfl, -⟩ := h; rfl
theorem State.SameButOutcome.tree : t.tree = u.tree := by obtain ⟨_, _, _, _, _, _, rfl, -⟩ := h; rfl
theorem State.SameButOutcome.outLen : t.outLen = u.outLen := by obtain ⟨_, _, _, _, _, _, rfl, -⟩ := h; rfl
theorem State.SameButOutcome.phase : t.phase = .idle ∨ t.phase = u.phase := by
  obtain ⟨_, _, _, _, _, _, rfl, -, hp⟩ := h; exact hp
theorem State.SameButOutcome.dstAt (j : Nat) : t.dstAt j = u.dstAt j := by obtain ⟨_, _, _, _, _, _, rfl, -⟩ := h; rfl
theorem State.SameButOutcome.tokAt (j : Nat) : t.tokAt j = u.tokAt j := by obtain ⟨_, _, _, _, _, _, rfl, -⟩ := h; rfl
theorem State.SameButOutcome.freqAt (j : Nat) : t.freqAt j = u.freqAt j := by obtain ⟨_, _, _, _, _, _, rfl, -⟩ := h; rfl
theorem State.SameButOutcome.codeAt (j : Nat) : t.codeAt j = u.codeAt j := by obtain ⟨_, _, _, _, _, _, rfl, -⟩ := h; rfl
theorem State.SameButOutcome.nodeAt (j : Nat) : t.nodeAt j = u.nodeAt j := by obtain ⟨_, _, _, _, _, _, rfl, -⟩ := h; rfl

end

section
variable {i : Instr} {s t : State} (h : exec i s = .next t)
include h

/-- Only the writer's commands change BW_* (R30). -/
theorem exec_keeps_bw (hi : i ∉ [.bwInit, .bwBits, .bwFlush, .huffSerialize, .huffEncode, .compress]) : t.bw = s.bw := by
  cases exec_changes h with
  | bwInit => simp at hi
  | writer hw => exact absurd (List.subset_def.1 (by decide) hw) hi
  | compress => simp at hi
  | _ => have ht := ‹State.SameButOutcome _ t›; exact ht.bw

/-- Only the commands and symbols that read the stream change BR_* (R31). -/
theorem exec_keeps_br (hi : i ∉ [.brInit, .brBits, .huffDeserialize, .huffDecodeSym, .decompress])
    (hl : ¬∃ k, (k, i) ∈ lengthSymbolTable) (hd : ¬∃ k, (k, i) ∈ distanceSymbolTable) : t.br = s.br := by
  cases exec_changes h with
  | reader hr =>
    rcases hr with hr | hr
    · exact absurd (List.subset_def.1 (by decide) hr) hi
    · exact absurd hr hl
  | deserialize => simp at hi
  | decompress => simp at hi
  | distance hk => exact absurd hk hd
  | _ => have ht := ‹State.SameButOutcome _ t›; exact ht.br

/-- Only LZ_MATCH and COMPRESS change TOK and TOK_COUNT (R34). -/
theorem exec_keeps_tokens (hi : i ∉ [.lzMatch, .compress]) :
    t.tokCount = s.tokCount ∧ ∀ j, t.tokAt j = s.tokAt j := by
  cases exec_changes h with
  | tokens => simp at hi
  | compress => simp at hi
  | _ => have ht := ‹State.SameButOutcome _ t›; exact ⟨ht.tokCount, ht.tokAt⟩

/-- Only FREQ_COUNT and COMPRESS change FREQ (R44). -/
theorem exec_keeps_freq (hi : i ∉ [.freqCount, .compress]) (j : Nat) : t.freqAt j = s.freqAt j := by
  cases exec_changes h with
  | freq => simp at hi
  | compress => simp at hi
  | _ => have ht := ‹State.SameButOutcome _ t›; exact ht.freqAt j

/-- Only HUFF_CODES and COMPRESS change CODE (R45). -/
theorem exec_keeps_code (hi : i ∉ [.huffCodes, .compress]) (j : Nat) : t.codeAt j = s.codeAt j := by
  cases exec_changes h with
  | code => simp at hi
  | compress => simp at hi
  | _ => have ht := ‹State.SameButOutcome _ t›; exact ht.codeAt j

/-- Only the commands that build a tree change TREE_* and NODE (R35, R46). -/
theorem exec_keeps_tree (hi : i ∉ [.huffBuild, .huffDeserialize, .compress, .decompress]) :
    t.tree = s.tree ∧ ∀ j, t.nodeAt j = s.nodeAt j := by
  cases exec_changes h with
  | build => simp at hi
  | deserialize => simp at hi
  | compress => simp at hi
  | decompress => simp at hi
  | _ => have ht := ‹State.SameButOutcome _ t›; exact ⟨ht.tree, ht.nodeAt⟩

/-- Only DECOMPRESS and the symbols that append output change OUT_LEN (R36). -/
theorem exec_keeps_outLen (hi : i ≠ .decompress) (hl : ¬∃ v, i = .lit v) (hd : ¬∃ k, (k, i) ∈ distanceSymbolTable) :
    t.outLen = s.outLen := by
  cases exec_changes h with
  | decompress => exact absurd rfl hi
  | literal v => exact absurd ⟨v, rfl⟩ hl
  | distance hk => exact absurd hk hd
  | _ => have ht := ‹State.SameButOutcome _ t›; exact ht.outLen

/-- Only the writer's commands and the symbols that append output change DST (R42). -/
theorem exec_keeps_dst (hi : i ∉ [.bwBits, .bwFlush, .huffSerialize, .huffEncode, .compress])
    (hl : ¬∃ v, i = .lit v) (hd : ¬∃ k, (k, i) ∈ distanceSymbolTable) (j : Nat) : t.dstAt j = s.dstAt j := by
  cases exec_changes h with
  | writer hw => exact absurd (List.subset_def.1 (by decide) hw) hi
  | compress => simp at hi
  | literal v => exact absurd ⟨v, rfl⟩ hl
  | distance hk => exact absurd hk hd
  | _ => have ht := ‹State.SameButOutcome _ t›; exact ht.dstAt j

/-- Only DECOMPRESS enters the decode loop: every other instruction keeps the phase, or ends (R143, R294, R321). -/
theorem exec_phase (hi : i ≠ .decompress) : t.phase = .idle ∨ t.phase = s.phase := by
  cases exec_changes h with
  | decompress => exact absurd rfl hi
  | _ => have ht := ‹State.SameButOutcome _ t›; exact ht.phase

end

/-- Settles O58, unit by unit. -/
theorem execKeepsOtherUnits : Obligations.ExecKeepsOtherUnits := by
  intro i s t h isLen isDist isLit
  exact ⟨exec_keeps_bw h, exec_keeps_br h, exec_keeps_tokens h, exec_keeps_freq h, exec_keeps_code h, exec_keeps_tree h,
    exec_keeps_outLen h, exec_keeps_dst h⟩

/-- Settles O57: exec_changes names every field an instruction may change, and none of these is among them. -/
theorem execKeepsHostState : Obligations.ExecKeepsHostState := by
  intro i s t h
  cases exec_changes h with
  | _ =>
    obtain ⟨_, _, _, _, _, _, rfl, hw, -⟩ := ‹State.SameButOutcome _ t›
    exact ⟨rfl, rfl, rfl, rfl, hw, rfl, rfl, rfl, rfl, rfl, rfl, rfl⟩

end Sys2Proof.Machine
end

section
/-! What a host access names (R21, R71, R72). -/

namespace Sys2Proof

/-- Every register stands at its own aligned offset in the register region (R21). -/
theorem Reg.offset_aligned (r : Reg) : r.offset < regRegionSize ∧ r.offset % 8 = 0 := by
  cases r <;> decide

theorem Reg.mem_all (r : Reg) : r ∈ Reg.all := by cases r <;> decide

theorem Reg.offset_injective {r r' : Reg} (h : r.offset = r'.offset) : r = r' := by
  have hall : ∀ r ∈ Reg.all, ∀ r' ∈ Reg.all, r.offset = r'.offset → r = r' := by decide
  exact hall r r.mem_all r' r'.mem_all h

/-- The register at an offset (R21). -/
theorem Reg.find?_eq_some_iff (addr : Nat) (r : Reg) :
    Reg.all.find? (fun r => r.offset == addr) = some r ↔ r.offset = addr := by
  refine ⟨fun h => by simpa using List.find?_some h, ?_⟩
  rintro rfl
  cases h : Reg.all.find? (fun r' => r'.offset == r.offset) with
  | none => exact absurd (beq_self_eq_true r.offset) (List.find?_eq_none.1 h r r.mem_all)
  | some r' => exact congrArg some (Reg.offset_injective (by simpa using List.find?_some h))

theorem Reg.find?_eq_none_iff (addr : Nat) :
    Reg.all.find? (fun r => r.offset == addr) = none ↔ ∀ r : Reg, r.offset ≠ addr := by
  rw [List.find?_eq_none]
  exact ⟨fun h r => by simpa using h r r.mem_all, fun h r _ => by simpa using h r⟩

/-- The element an access names, if it names one of this memory (R71, R72). -/
theorem elemTarget_eq_some_iff (p : Config.Params) (addr bytes : Nat) (m : MemId) (x : Target) :
    elemTarget p addr bytes m = some x ↔ ∃ i, i < m.count p ∧ bytes = m.width ∧ addr = elemAddr m i ∧ x = .elem m i := by
  have hw : 0 < m.width := by cases m <;> decide
  unfold elemTarget elemAddr
  constructor
  · intro h
    split at h
    · rename_i hc
      obtain ⟨hb, hw', hd, hi⟩ := hc
      have := Nat.div_add_mod (addr - m.base) m.width
      exact ⟨_, hi, hw', by omega, (Option.some.inj h).symm⟩
    · cases h
  · rintro ⟨i, hi, hb, rfl, rfl⟩
    have hs : m.base + m.width * i - m.base = m.width * i := by omega
    rw [hs, Nat.mul_mod_right, Nat.mul_div_cancel_left i hw, if_pos ⟨by omega, hb, rfl, hi⟩]

/-- The memory whose region an address above the registers lies in (R71). -/
def MemId.ofAddr (addr : Nat) : MemId :=
  if addr < 2 * 2 ^ 32 then .freq else if addr < 3 * 2 ^ 32 then .code else if addr < 2 ^ 40 then .node
  else if addr < 2 * 2 ^ 40 then .tok else if addr < 3 * 2 ^ 40 then .src else .dst

/-- Under legal parameters no memory's elements reach the next region (R5, R71). -/
theorem MemId.ofAddr_elemAddr {p : Config.Params} (hp : p.legal) {m : MemId} {i : Nat} (hi : i < m.count p) :
    MemId.ofAddr (elemAddr m i) = m := by
  obtain ⟨-, hs, -, hd, -, hn⟩ := hp
  have ha : elemAddr m i = m.base + m.width * i := rfl
  unfold MemId.ofAddr
  generalize elemAddr m i = a at ha
  cases m <;> simp only [MemId.count, MemId.base, MemId.width, Config.Params.tokCap, Config.symbols] at hi ha
  case freq => rw [if_pos (by omega)]
  case code => rw [if_neg (by omega), if_pos (by omega)]
  case node => rw [if_neg (by omega), if_neg (by omega), if_pos (by omega)]
  case tok => rw [if_neg (by omega), if_neg (by omega), if_neg (by omega), if_pos (by omega)]
  case src => rw [if_neg (by omega), if_neg (by omega), if_neg (by omega), if_neg (by omega), if_pos (by omega)]
  case dst => rw [if_neg (by omega), if_neg (by omega), if_neg (by omega), if_neg (by omega), if_neg (by omega)]

theorem MemId.regRegionSize_le_base (m : MemId) : regRegionSize ≤ m.base := by cases m <;> decide

theorem MemId.mem_all (m : MemId) : m ∈ MemId.all := by cases m <;> decide

/-- What an access inside the register region names (R21, R72). -/
theorem accessTarget_of_lt {p : Config.Params} {addr bytes : Nat} (h : addr < regRegionSize) :
    accessTarget p addr bytes = if bytes = 8 ∧ addr % 8 = 0 then
      some ((Reg.all.find? (fun r => r.offset == addr)).elim .reserved .reg) else none := by
  rw [accessTarget, if_pos h]
  split
  · cases Reg.all.find? (fun r => r.offset == addr) <;> rfl
  · rfl

/-- An access above the register region names an element or nothing (R72). -/
theorem accessTarget_of_ge {p : Config.Params} {addr bytes : Nat} (h : regRegionSize ≤ addr) :
    accessTarget p addr bytes = MemId.all.findSome? (elemTarget p addr bytes) := by
  rw [accessTarget, if_neg (by omega)]

/-- An access that names an element is at that element, with its width (R72). -/
theorem of_accessTarget_eq_elem {p : Config.Params} {addr bytes : Nat} {m : MemId} {i : Nat}
    (h : accessTarget p addr bytes = some (.elem m i)) : i < m.count p ∧ bytes = m.width ∧ addr = elemAddr m i := by
  rcases lt_or_ge addr regRegionSize with hlt | hge
  · rw [accessTarget_of_lt hlt] at h
    split at h
    · cases hf : Reg.all.find? (fun r => r.offset == addr) <;> rw [hf] at h <;> cases h
    · cases h
  · rw [accessTarget_of_ge hge] at h
    obtain ⟨m', -, hm'⟩ := List.exists_of_findSome?_eq_some h
    obtain ⟨i', hi', hb, ha, hx⟩ := (elemTarget_eq_some_iff p addr bytes m' _).1 hm'
    cases hx
    exact ⟨hi', hb, ha⟩

/-- Under legal parameters an access at an element, with its width, names it (R71, R72). -/
theorem accessTarget_elemAddr {p : Config.Params} (hp : p.legal) {m : MemId} {i : Nat} (hi : i < m.count p) :
    accessTarget p (elemAddr m i) m.width = some (.elem m i) := by
  have hge : regRegionSize ≤ elemAddr m i := m.regRegionSize_le_base.trans (Nat.le_add_right _ _)
  have hm := (elemTarget_eq_some_iff p (elemAddr m i) m.width m _).2 ⟨i, hi, rfl, rfl, rfl⟩
  rw [accessTarget_of_ge hge]
  cases h : MemId.all.findSome? (elemTarget p (elemAddr m i) m.width) with
  | none => rw [List.findSome?_eq_none_iff.1 h m m.mem_all] at hm; cases hm
  | some x =>
    obtain ⟨m', -, hm'⟩ := List.exists_of_findSome?_eq_some h
    obtain ⟨i', hi', -, ha, -⟩ := (elemTarget_eq_some_iff p (elemAddr m i) m.width m' _).1 hm'
    have heq : m = m' := by rw [← MemId.ofAddr_elemAddr hp hi, ha, MemId.ofAddr_elemAddr hp hi']
    rw [← heq, hm] at hm'
    exact hm'.symm

/-- An access that names a register is at its offset, with 8 bytes (R21, R72). -/
theorem accessTarget_eq_reg_iff (p : Config.Params) (addr bytes : Nat) (r : Reg) :
    accessTarget p addr bytes = some (.reg r) ↔ r.offset = addr ∧ bytes = 8 := by
  constructor
  · intro h
    rcases lt_or_ge addr regRegionSize with hlt | hge
    · rw [accessTarget_of_lt hlt] at h
      split at h
      · rename_i hb
        refine ⟨(Reg.find?_eq_some_iff addr r).1 ?_, hb.1⟩
        cases hf : Reg.all.find? (fun r => r.offset == addr) with
        | none => rw [hf] at h; cases h
        | some r' => rw [hf] at h; cases h; rfl
      · cases h
    · rw [accessTarget_of_ge hge] at h
      obtain ⟨m, -, hm⟩ := List.exists_of_findSome?_eq_some h
      obtain ⟨i, -, -, -, hx⟩ := (elemTarget_eq_some_iff p addr bytes m _).1 hm
      cases hx
  · rintro ⟨rfl, rfl⟩
    rw [accessTarget_of_lt r.offset_aligned.1, if_pos ⟨rfl, r.offset_aligned.2⟩, (Reg.find?_eq_some_iff _ r).2 rfl]
    rfl

/-- An access names a reserved offset exactly when it is 8 bytes at an aligned offset of no register (R21, R72). -/
theorem accessTarget_eq_reserved_iff (p : Config.Params) (addr bytes : Nat) :
    accessTarget p addr bytes = some .reserved ↔
      addr < regRegionSize ∧ addr % 8 = 0 ∧ bytes = 8 ∧ ∀ r : Reg, r.offset ≠ addr := by
  constructor
  · intro h
    rcases lt_or_ge addr regRegionSize with hlt | hge
    · rw [accessTarget_of_lt hlt] at h
      split at h
      · rename_i hb
        refine ⟨hlt, hb.2, hb.1, (Reg.find?_eq_none_iff addr).1 ?_⟩
        cases hf : Reg.all.find? (fun r => r.offset == addr) with
        | none => rfl
        | some r' => rw [hf] at h; cases h
      · cases h
    · rw [accessTarget_of_ge hge] at h
      obtain ⟨m, -, hm⟩ := List.exists_of_findSome?_eq_some h
      obtain ⟨i, -, -, -, hx⟩ := (elemTarget_eq_some_iff p addr bytes m _).1 hm
      cases hx
  · rintro ⟨hlt, ha, rfl, hr⟩
    rw [accessTarget_of_lt hlt, if_pos ⟨rfl, ha⟩, (Reg.find?_eq_none_iff addr).2 hr]
    rfl

/-- An access that names nothing is neither a word of the register region nor a whole element (R72). -/
theorem accessTarget_eq_none {p : Config.Params} {addr bytes : Nat} (hr : ¬(addr < 0x1000 ∧ addr % 8 = 0 ∧ bytes = 8))
    (hm : ∀ (m : MemId) (i : Nat), i < m.count p → ¬(bytes = m.width ∧ addr = elemAddr m i)) :
    accessTarget p addr bytes = none := by
  cases h : accessTarget p addr bytes with
  | none => rfl
  | some x =>
    cases x with
    | reg r =>
      obtain ⟨rfl, hb⟩ := (accessTarget_eq_reg_iff p addr bytes r).1 h
      exact absurd ⟨r.offset_aligned.1, r.offset_aligned.2, hb⟩ hr
    | reserved =>
      obtain ⟨hlt, ha, hb, -⟩ := (accessTarget_eq_reserved_iff p addr bytes).1 h
      exact absurd ⟨hlt, ha, hb⟩ hr
    | elem m i =>
      obtain ⟨hi, hb, ha⟩ := of_accessTarget_eq_elem h
      exact absurd ⟨hb, ha⟩ (hm m i hi)

end Sys2Proof
end

section
/-! What a host read and a host write do (R22 to R40, R77). -/

namespace Sys2Proof.Machine

/-! ## Port operations -/

/-- A port read of a target it names. -/
theorem step_of_read {s : State} {addr bytes : Nat} {x : Target} {rest : List Turn}
    (hp : s.pending = .port (.read addr bytes) :: rest) (hx : accessTarget s.params addr bytes = some x) :
    step s = .next (hostRead x { s with pending := rest }) := by
  rw [step_of_port s _ rest hp, portStep]
  simp only [hx]

/-- A port write to a target it names. -/
theorem step_of_write {s : State} {addr bytes : Nat} {v : Word} {x : Target} {rest : List Turn}
    (hp : s.pending = .port (.write addr bytes v) :: rest) (hx : accessTarget s.params addr bytes = some x) :
    step s = .next (hostWrite x v { s with pending := rest }) := by
  rw [step_of_port s _ rest hp, portStep]
  simp only [hx]

/-- A port read of nothing is refused (R72; log 9). -/
theorem step_of_malformed_read {s : State} {addr bytes : Nat} {rest : List Turn}
    (hp : s.pending = .port (.read addr bytes) :: rest) (hx : accessTarget s.params addr bytes = none) :
    step s = .refused (.busError addr bytes) := by
  rw [step_of_port s _ rest hp, portStep]
  simp only [hx]

/-- A port write to nothing is refused (R72; log 9). -/
theorem step_of_malformed_write {s : State} {addr bytes : Nat} {v : Word} {rest : List Turn}
    (hp : s.pending = .port (.write addr bytes v) :: rest) (hx : accessTarget s.params addr bytes = none) :
    step s = .refused (.busError addr bytes) := by
  rw [step_of_port s _ rest hp, portStep]
  simp only [hx]

/-- A read of what the Engine does not write is exact at any time (R78). -/
theorem hostRead_of_not_free {x : Target} (h : freeWhileBusy x = false) (s : State) :
    hostRead x s = { s with portData := s.targetValue x } := by
  rw [hostRead, h, Bool.and_false]
  rfl

section
variable {s : State} {addr bytes : Nat} {v : Word} {rest : List Turn} (hi : s.phase = .idle)
  (hp : s.pending = .port (.write addr bytes v) :: rest)
include hi hp

/-- While BUSY = 0 a write reaches the register it names (R77, R80). -/
theorem step_of_write_reg {r : Reg} (hx : accessTarget s.params addr bytes = some (.reg r)) :
    step s = .next (writeReg r v { s with pending := rest }) := by
  rw [step_of_write hp hx, hostWrite, State.busy, show ({ s with pending := rest } : State).phase = .idle from hi]
  rfl

theorem step_of_write_reserved (hx : accessTarget s.params addr bytes = some .reserved) :
    step s = .next { s with pending := rest } := by
  rw [step_of_write hp hx, hostWrite, State.busy, show ({ s with pending := rest } : State).phase = .idle from hi]
  rfl

/-- While BUSY = 0 a write reaches the element it names (R77, R80). -/
theorem step_of_write_elem {m : MemId} {i : Nat} (hx : accessTarget s.params addr bytes = some (.elem m i)) :
    step s = .next (writeElem m i v { s with pending := rest }) := by
  rw [step_of_write hp hx, hostWrite, State.busy, show ({ s with pending := rest } : State).phase = .idle from hi]
  rfl

end

/-! ## What a write stores -/

/-- The registers whose writes store the value written (R28, R32). -/
def storingRegs : List Reg :=
  [.arg0, .arg1, .arg2, .arg3, .cfgWindow, .cfgMinMatch, .cfgMaxMatch, .cfgMaxChain, .cfgLazyDiv]

/-- A write to an ARG or CFG register changes that register alone (R28, R32). -/
theorem regValue_writeReg (v : Word) (s : State) (r' : Reg) :
    ∀ r ∈ storingRegs, (writeReg r v s).regValue r' = if r' = r then v else s.regValue r' := by
  simp only [storingRegs, List.forall_mem_cons, List.not_mem_nil, false_imp_iff, implies_true, and_true]
  refine ⟨?_, ?_, ?_, ?_, ?_, ?_, ?_, ?_, ?_⟩ <;> cases r' <;> rfl

/-- A write to an ARG or CFG register changes no memory (R28, R32). -/
theorem elem_writeReg (v : Word) (s : State) (m : MemId) (i : Nat) :
    ∀ r ∈ storingRegs, (writeReg r v s).elem m i = s.elem m i := by
  simp only [storingRegs, List.forall_mem_cons, List.not_mem_nil, false_imp_iff, implies_true, and_true]
  refine ⟨?_, ?_, ?_, ?_, ?_, ?_, ?_, ?_, ?_⟩ <;> cases m <;> rfl

/-- Read-only registers take no write (R21). -/
theorem writeReg_readOnly (v : Word) (s : State) :
    ∀ r ∈ [Reg.id, .errPos, .errSym, .res0, .res1, .res2, .res3, .bwPos, .bwAcc, .bwCnt, .bwTotal,
      .brPos, .brEnd, .brAcc, .brCnt, .treeRoot, .treeNodes, .treeValid, .outLen], writeReg r v s = s := by
  simp [writeReg]

/-- A write of one element, read back as the port's data. -/
theorem setWidth_get?_put_singleton {w : Nat} (m : Mem w) (i : Nat) (v : BitVec w) (j : Nat) (d : BitVec w) :
    (((m.put i [v]).get? j).getD d).setWidth 64 = if j = i then v.setWidth 64 else ((m.get? j).getD d).setWidth 64 := by
  rw [getD_get?_put_singleton]
  split <;> rfl

/-- A write to an element of SRC, DST, TOK or FREQ changes that element alone, and stores the low bits its width holds
(R40; log 20). -/
theorem elem_writeElem_same {m : MemId} (hm : m ∈ [MemId.src, .dst, .tok, .freq]) (i : Nat) (v : Word) (s : State)
    (j : Nat) :
    (writeElem m i v s).elem m j = if j = i then (v.setWidth (8 * m.width)).setWidth 64 else s.elem m j := by
  simp only [List.mem_cons, List.not_mem_nil, or_false] at hm
  rcases hm with rfl | rfl | rfl | rfl
  · exact setWidth_get?_put_singleton s.src i _ j _
  · exact setWidth_get?_put_singleton s.dst i _ j _
  · exact setWidth_get?_put_singleton s.tok i _ j _
  · exact setWidth_get?_put_singleton s.freq i _ j _

/-- A write to an element changes no other memory (R40). -/
theorem elem_writeElem_of_ne {m m' : MemId} (h : m' ≠ m) (i : Nat) (v : Word) (s : State) (j : Nat) :
    (writeElem m i v s).elem m' j = s.elem m' j := by
  cases m <;> cases m' <;>
    simp_all [writeElem, State.elem, State.srcAt, State.dstAt, State.tokAt, State.freqAt, State.codeAt, State.nodeAt]

/-- An element write changes no register (R40). -/
theorem regValue_writeElem (m : MemId) (i : Nat) (v : Word) (s : State) (r : Reg) :
    (writeElem m i v s).regValue r = s.regValue r := by
  cases m <;> cases r <;> rfl

/-! ## The statements -/

/-- Settles O11: ID is at offset 0, its reads are never free, and a write to it stores nothing. -/
theorem idReadsConstant : Obligations.IdReadsConstant := by
  have hx (s : State) : accessTarget s.params 0x000 8 = some (.reg .id) := (accessTarget_eq_reg_iff _ _ _ _).2 ⟨rfl, rfl⟩
  refine ⟨fun s rest hp => ?_, fun s v rest hi hp => ?_, by decide, by decide, by decide, rfl⟩
  · rw [step_of_read hp (hx s), hostRead_of_not_free rfl]
    rfl
  · rw [step_of_write_reg hi hp (hx s)]
    rfl

/-- Settles O15: none of these targets stores what is written. -/
theorem readOnlyTargetsIgnoreWrites : Obligations.ReadOnlyTargetsIgnoreWrites := by
  intro s addr bytes v x rest hi hp hx hro
  rcases hro with rfl | ⟨i, rfl⟩ | ⟨i, rfl⟩ | ⟨r, hr, rfl⟩
  · exact step_of_write_reserved hi hp hx
  · exact step_of_write_elem hi hp hx
  · exact step_of_write_elem hi hp hx
  · rw [step_of_write_reg hi hp hx, writeReg_readOnly v _ r hr]

/-- Settles O14: the write reaches its target, and what each target reads afterwards is known field by field. -/
theorem idleWriteStores : Obligations.IdleWriteStores := by
  intro s addr bytes v x rest hi hp hx
  refine ⟨?_, ?_, ?_⟩
  · rintro (⟨r, hr, rfl⟩ | ⟨m, i, hm, rfl⟩)
    · obtain ⟨-, rfl⟩ := (accessTarget_eq_reg_iff _ _ _ r).1 hx
      refine ⟨_, step_of_write_reg hi hp hx, ?_, fun y hy => ?_⟩
      · exact (regValue_writeReg v _ r r hr).trans (by simp)
      · cases y with
        | reg r' => exact (regValue_writeReg v _ r' r hr).trans (if_neg (mt (congrArg Target.reg) hy))
        | reserved => rfl
        | elem m i => exact elem_writeReg v _ m i r hr
    · obtain ⟨-, rfl, -⟩ := of_accessTarget_eq_elem hx
      refine ⟨_, step_of_write_elem hi hp hx, ?_, fun y hy => ?_⟩
      · exact (elem_writeElem_same hm i v _ i).trans (if_pos rfl)
      · cases y with
        | reg r => exact regValue_writeElem m i v _ r
        | reserved => rfl
        | elem m' j =>
          rcases eq_or_ne m' m with rfl | hne
          · exact (elem_writeElem_same hm i v _ j).trans (if_neg (mt (congrArg (Target.elem _)) hy))
          · exact elem_writeElem_of_ne hne i v _ j
  · rintro rfl
    exact step_of_write_reg hi hp hx
  · rintro rfl
    rw [step_of_write_reg hi hp hx, writeReg, Status.hostWrite]
    cases v.getLsbD 3 <;> simp

/-- Every error code fits four bits (R320). -/
theorem errorCode_le (c : Option EngineError) : errorCode c ≤ 11 := by
  rcases c with _ | e
  · decide
  · cases e <;> decide

/-- The value of STATUS as a number (R24). -/
theorem State.statusWord_toNat (s : State) : s.statusWord.toNat = s.busy.toNat + s.status.done.toNat * 2 +
    s.status.err.toNat * 4 + s.status.wdrop.toNat * 8 + errorCode s.status.code * 2 ^ 8 := by
  have := errorCode_le s.status.code
  have := s.busy.toNat_le
  have := s.status.done.toNat_le
  have := s.status.err.toNat_le
  have := s.status.wdrop.toNat_le
  exact Word.toNat_ofNat_of_lt (by omega)

/-- A sum of five fields that do not overlap: four bits and a number of at most 11 from bit 8 on. -/
theorem fields_of_sum {n c : Nat} {b0 b1 b2 b3 : Bool} (hc : c ≤ 11)
    (hn : n = b0.toNat + b1.toNat * 2 + b2.toNat * 4 + b3.toNat * 8 + c * 2 ^ 8) :
    n.testBit 0 = b0 ∧ n.testBit 1 = b1 ∧ n.testBit 2 = b2 ∧ n.testBit 3 = b3 ∧ bitField n 4 4 = 0 ∧
      bitField n 8 8 = c ∧ n / 2 ^ 16 = 0 := by
  have bit (k : Nat) (b : Bool) (h : n / 2 ^ k % 2 = b.toNat) : n.testBit k = b := by
    rw [Nat.testBit_eq_decide_div_mod_eq, h]
    cases b <;> rfl
  have := b0.toNat_le
  have := b1.toNat_le
  have := b2.toNat_le
  have := b3.toNat_le
  unfold bitField
  exact ⟨bit 0 b0 (by omega), bit 1 b1 (by omega), bit 2 b2 (by omega), bit 3 b3 (by omega), by omega, by omega, by omega⟩

/-- Settles O12: STATUS is a sum of fields that do not overlap. -/
theorem statusReadLayout : Obligations.StatusReadLayout := by
  intro s rest hp
  have hx : accessTarget s.params 0x010 8 = some (.reg .status) := (accessTarget_eq_reg_iff _ _ _ _).2 ⟨rfl, rfl⟩
  obtain ⟨hbusy, hdone, herr, hwdrop, hzero, hcode, hhigh⟩ :=
    fields_of_sum (errorCode_le s.status.code) s.statusWord_toNat
  refine ⟨{ s with pending := rest, portData := s.statusWord }, ?_, ?_, hdone, herr, hwdrop, hzero, ?_, hhigh⟩
  · rw [step_of_read hp hx, hostRead_of_not_free rfl]
    rfl
  · refine hbusy.trans ?_
    cases h : s.phase <;> simp [State.busy, h]
  · dsimp only
    rw [hcode]
    rcases s.status.code with _ | e
    · simp [errorCode]
    · cases e <;> simp [errorCode]

/-- Settles O13: an access inside the register region is a register's or a reserved one; above it the regions stand apart. -/
theorem accessNamesWholeElement : Obligations.AccessNamesWholeElement := by
  intro p addr bytes hp registers
  have htable : registers = Reg.all.map fun r => (r.offset, r) := rfl
  have hreg (r : Reg) : (addr, r) ∈ registers ↔ r.offset = addr := by
    simp [htable, Reg.mem_all]
  have hoff : addr ∉ registers.map Prod.fst ↔ ∀ r : Reg, r.offset ≠ addr := by
    simp [htable, Reg.mem_all]
  refine ⟨?_, fun m i => ⟨of_accessTarget_eq_elem, ?_⟩, fun r => ?_, ?_, ?_⟩
  · simp [MemId.base, MemId.width, MemId.count, Config.symbols, Config.Params.tokCap]
  · rintro ⟨hi, rfl, rfl⟩
    exact accessTarget_elemAddr hp hi
  · rw [accessTarget_eq_reg_iff, hreg]
  · rw [accessTarget_eq_reserved_iff, hoff]
    simp [regRegionSize]
  · rintro ⟨hr, hm⟩ s v rest rfl
    have hx := accessTarget_eq_none hr hm
    exact ⟨fun h => step_of_malformed_read h hx, fun h => step_of_malformed_write h hx⟩

end Sys2Proof.Machine
end

section
/-! The invariant of the units: what every rule of a running command keeps (R5, R30, R31, R34, R36, R40). -/

namespace Sys2Proof.Machine

variable {α : Type}

/-- A rule on the tree runs on some tree, raises NoTree, or is stuck (R244, R246; log 10). -/
theorem withTree_all {P : State → Prop} {s : State} {k : CodeTree → Res α} (hs : P s) (hk : ∀ t, (k t).All P) :
    (withTree s k).All P := by
  unfold withTree
  split
  · exact .of_raised rfl hs
  · split
    · exact .of_stuck rfl
    · exact hk _

/-- COMPRESS keeps what each of its rules keeps (R290). -/
theorem compress_all {P : State → Prop} {n dataType auxWidth : Nat} {s : State} (hs : P s)
    (hmatch : ∀ s, P s → (lzMatch n s).All P) (hfreq : ∀ s, P s → (freqCount s).All P)
    (hbuild : ∀ s, P s → (huffBuild s).All P) (hcodes : ∀ s, P s → (huffCodes s).All P)
    (hheader : ∀ s, P s → P (s.putDst 0 (headerBytes dataType auxWidth n))) (hinit : ∀ s, P s → (bwInit 9 s).All P)
    (hserial : ∀ s, P s → (huffSerialize s).All P) (hencode : ∀ s, P s → (huffEncode s).All P)
    (hflush : ∀ s, P s → (flush s).All P) : (compress n dataType auxWidth s).All P := by
  have hconfig : (checkConfig s).All P := by
    cases h : s.lzConfig.firstBad with
    | none => exact .of_ok (checkConfig_of_ok s h) hs
    | some x => exact .of_raised (checkConfig_of_bad s x.1 x.2 h) hs
  unfold compress
  split
  · exact .of_raised rfl hs
  · exact hconfig.bind fun _ s hs => (hmatch s hs).bind fun _ s hs => (hfreq s hs).bind fun _ s hs =>
      (hbuild s hs).bind fun _ s hs => (hcodes s hs).bind fun _ s hs => (hinit _ (hheader s hs)).bind fun _ s hs =>
      (hserial s hs).bind fun _ s hs => (hencode s hs).bind fun _ s hs => (hflush s hs).bind fun _ _ hs => .of_ok rfl hs

/-! ## The invariant -/

/-- A memory of `n` elements in canonical form (R40; log 2). -/
def Mem.Fits {w : Nat} (m : Mem w) (n : Nat) : Prop := m.wf ∧ m.below n

theorem Mem.Fits.put {w : Nat} {m : Mem w} {n : Nat} (h : m.Fits n) (i : Nat) (vs : List (BitVec w))
    (hn : i + vs.length ≤ n) : (m.put i vs).Fits n :=
  ⟨m.put_wf i vs h.1, m.put_below i vs n h.2 hn⟩

theorem Mem.fits_nil {w : Nat} (n : Nat) : Mem.Fits ([] : Mem w) n := ⟨List.Pairwise.nil, fun _ h => by cases h⟩

/-- The part of the invariant that concerns the units alone, and holds between the steps of a command too. -/
structure State.UnitInv (s : State) : Prop where
  legal : s.params.legal
  src : s.src.Fits s.params.srcSize
  dst : s.dst.Fits s.params.dstSize
  tok : s.tok.Fits s.params.tokCap
  freq : s.freq.Fits Config.symbols
  code : s.code.Fits Config.symbols
  node : s.node.Fits s.params.nodeCap
  writer : s.writerInv
  reader : s.readerInv
  tokCount : s.tokCount.toNat ≤ s.params.tokCap
  outLen : s.outLen.toNat ≤ s.params.dstSize

/-- The part that concerns DECOMPRESS's variables in the decode loop (R36, R294, R298). -/
def State.DecodeInv (s : State) : Prop :=
  s.phase = .decoding → s.outLen.toNat ≤ s.dec.len ∧ s.dec.len ≤ s.params.dstSize ∧
    s.dec.pendingLen.all (fun l => decide (3 ≤ l ∧ l ≤ 258)) = true

/-- The invariant is that of the units, of the flags, of the decode loop and of the latch. -/
theorem State.inv_iff (s : State) : s.Inv ↔ s.UnitInv ∧ s.flagInv ∧ s.DecodeInv ∧ s.latchInv := by
  constructor
  · rintro ⟨hl, ⟨hsrc, hdst, htok, hfreq, hcode, hnode⟩, hw, hr, hf, ⟨ht, ho, hd⟩, hla⟩
    exact ⟨⟨hl, hsrc, hdst, htok, hfreq, hcode, hnode, hw, hr, ht, ho⟩, hf, hd, hla⟩
  · rintro ⟨⟨hl, hsrc, hdst, htok, hfreq, hcode, hnode, hw, hr, ht, ho⟩, hf, hd, hla⟩
    exact ⟨hl, ⟨hsrc, hdst, htok, hfreq, hcode, hnode⟩, hw, hr, hf, ⟨ht, ho, hd⟩, hla⟩

/-- done ends a command in the invariant (R143). -/
theorem State.UnitInv.complete {s : State} (h : s.UnitInv) (r : Results) : (s.complete r).Inv :=
  (State.inv_iff _).2 ⟨{ h with }, ⟨by simp, by simp, rfl⟩, fun hp => (by cases hp), fun hp => (by cases hp)⟩

/-- raise ends a command in the invariant (R321). -/
theorem State.UnitInv.raise {s : State} (h : s.UnitInv) (e : EngineError) (pos sym : Nat) : (s.raise e pos sym).Inv :=
  (State.inv_iff _).2 ⟨{ h with }, ⟨by simp, by simp, rfl⟩, fun hp => (by cases hp), fun hp => (by cases hp)⟩

theorem Res.All.finish_inv {r : Res Results} {t : State} (hr : r.All State.UnitInv) (h : r.finish = .next t) : t.Inv :=
  hr.finish h (fun _ rs hu => hu.complete rs) fun _ e pos sym hu => hu.raise e pos sym

/-! ## The writer and the reader -/

theorem writeBits_unitInv (v n : Nat) {s : State} (hs : s.UnitInv) : (writeBits v n s).All State.UnitInv := by
  rcases writeBits_cases v n s with ⟨t, h⟩ | ⟨-, h⟩
  · obtain ⟨-, -, -, -, hw, -⟩ := writeBits_spec v n s t hs.legal.2.2.2.1 h
    obtain ⟨hfit, rfl⟩ := writeBits_ok v n s t h
    exact .of_ok h { hs with dst := hs.dst.put _ _ (by simpa using hfit), writer := hw }
  · exact .of_raised h hs

theorem writeAll_unitInv (ws : List (Nat × Nat)) {s : State} (hs : s.UnitInv) : (writeAll ws s).All State.UnitInv := by
  induction ws generalizing s with
  | nil => exact .of_ok rfl hs
  | cons x ws ih => exact (writeBits_unitInv x.1 x.2 hs).bind fun _ _ ht => ih ht

theorem encodeTokens_unitInv (toks : List Token) (i k : Nat) {s : State} (hs : s.UnitInv) :
    (encodeTokens toks i k s).All State.UnitInv := by
  induction toks generalizing i k s with
  | nil => exact .of_ok rfl hs
  | cons tok toks ih =>
    exact .ite (fun _ => .of_raised rfl hs) fun _ =>
      (writeBits_unitInv _ _ hs).bind fun _ _ ht => (writeBits_unitInv _ _ ht).bind fun _ _ hu => ih _ _ hu

theorem flush_unitInv {s : State} (hs : s.UnitInv) : (flush s).All State.UnitInv := by
  obtain ⟨hc, ha, hp⟩ := hs.writer
  have hd := hs.legal.2.2.2.1
  refine .ite (fun _ => .ite (fun _ => .of_raised rfl hs) fun hfit => ?_) fun _ => ?_
  · have hpos : (Word.ofNat (s.bw.pos.toNat + 1)).toNat = s.bw.pos.toNat + 1 := Word.toNat_ofNat_of_lt (by omega)
    refine .of_ok rfl { hs with dst := hs.dst.put _ _ (by simpa using hfit), writer := ⟨by simp, by simp, ?_⟩ }
    exact hpos.trans_le (by simpa using hfit)
  · exact .of_ok rfl { hs with writer := ⟨by simp, by simp, hp⟩ }

theorem bwInit_unitInv (o : Nat) {s : State} (hs : s.UnitInv) : (bwInit o s).All State.UnitInv := by
  have hd := hs.legal.2.2.2.1
  refine .ite (fun _ => .of_raised rfl hs) fun ho => ?_
  have hpos : (Word.ofNat o).toNat = o := Word.toNat_ofNat_of_lt (by omega)
  exact .of_ok rfl { hs with writer := ⟨by simp, by simp, hpos.trans_le (Nat.le_of_not_lt ho)⟩ }

theorem brInit_unitInv (a e : Nat) {s : State} (hs : s.UnitInv) : (brInit a e s).All State.UnitInv := by
  have hsrc := hs.legal.2.1
  refine .ite (fun _ => .of_raised rfl hs) fun h => ?_
  have hpos : (Word.ofNat a).toNat = a := Word.toNat_ofNat_of_lt (by omega)
  have hstop : (Word.ofNat e).toNat = e := Word.toNat_ofNat_of_lt (by omega)
  refine .of_ok rfl { hs with reader := ⟨by simp, by simp, ?_, hstop.trans_le (Nat.le_of_not_lt fun hn => h (.inr hn))⟩ }
  show (Word.ofNat a).toNat ≤ (Word.ofNat e).toNat
  omega

/-- readBits changes BR_* alone and keeps the invariant; its value has at most n bits (R168). -/
theorem readBits_unitInv (n : Nat) {s : State} (hs : s.UnitInv) : (readBits n s).Gives
    (fun v t => v < 2 ^ n ∧ t.UnitInv ∧ ∃ br, t = { s with br := br }) State.UnitInv := by
  rcases le_or_gt n s.readerBits.length with h | h
  · obtain ⟨br, hr, -, hi, -⟩ := readBits_spec n s (by have := hs.legal.2.1; omega) hs.reader h
    rw [hr]
    refine .of_ok ⟨?_, { hs with reader := hi }, br, rfl⟩
    simpa [List.length_take, h] using valBits_lt (s.readerBits.take n)
  · rw [readBits_of_short n s h]
    exact .of_raised hs

theorem readBits_all_unitInv (n : Nat) {s : State} (hs : s.UnitInv) : (readBits n s).All State.UnitInv :=
  (readBits_unitInv n hs).all fun _ _ h => h.2.1

theorem descend_unitInv (fuel : Nat) (x : NodeEntry) (d : Nat) {s : State} (hs : s.UnitInv) :
    (descend fuel x d s).All State.UnitInv := by
  induction fuel generalizing x d s with
  | zero => exact .of_raised rfl hs
  | succ fuel ih =>
    cases x with
    | leaf sym => exact .of_ok rfl hs
    | internal sym l r => exact ((readBits_all_unitInv 1 hs).raiseAs _ _ _).bind fun _ _ ht => ih _ _ ht

theorem decodeSym_unitInv {s : State} (hs : s.UnitInv) : (decodeSym s).All State.UnitInv := descend_unitInv _ _ _ hs

end Sys2Proof.Machine
end

section
/-! The rules of the matcher and of the encoder's tables keep the invariant of the units (R213, R222, R240, R244 to R248). -/

namespace Sys2Proof.Machine

/-- With fewer than 3 bytes left there is no match (R217). -/
theorem findMatch_of_short {c : LzConfig} {b : Nat → Nat} {n p : Nat} (h : n < p + 3) : findMatch c b n p = (0, 0) := by
  rw [findMatch, if_pos (by omega)]

/-- A match is taken only where 3 bytes are left, since M is at least 3 (R213, R217). -/
theorem le_of_takesMatch {c : LzConfig} {b : Nat → Nat} {n p : Nat} (hc : 3 ≤ c.minMatch)
    (h : takesMatch c b n p (findMatch c b n p) = true) : p + 3 ≤ n ∧ 3 ≤ (findMatch c b n p).1 := by
  have hm : c.minMatch ≤ (findMatch c b n p).1 := by
    simp only [takesMatch, Bool.and_eq_true, decide_eq_true_eq] at h
    exact h.1
  refine ⟨?_, hc.trans hm⟩
  by_contra hn
  rw [findMatch_of_short (by omega)] at hm
  simp only at hm
  omega

/-- Every pass of the scan emits no more tokens than it consumes bytes: one for a byte, two for a match of 3 or more (R222). -/
theorem lzScan_length_le {c : LzConfig} (hc : 3 ≤ c.minMatch) (b : Nat → Nat) (n fuel p : Nat) :
    (lzScan c b n fuel p).length ≤ n - p := by
  induction fuel generalizing p with
  | zero => simp [lzScan]
  | succ fuel ih =>
    rw [lzScan]
    split
    · dsimp only
      split
      · rename_i ht
        obtain ⟨hp, hl⟩ := le_of_takesMatch hc ht
        have := ih (p + (findMatch c b n p).1)
        simp only [List.length_cons]
        omega
      · have := ih (p + 1)
        simp only [List.length_cons]
        omega
    · simp

/-- A stream has at most n + 1 tokens (R222). -/
theorem lzTokens_length_le {c : LzConfig} (hc : c.firstBad = none) (b : Nat → Nat) (n : Nat) :
    (lzTokens c b n).length ≤ n + 1 := by
  obtain ⟨-, -, -, -, hmin, -⟩ := (LzConfig.firstBad_eq_none_iff c).1 hc
  have := lzScan_length_le hmin b n n 0
  simp only [lzTokens, List.length_append, List.length_singleton]
  omega

theorem lzMatch_unitInv (n : Nat) {s : State} (hs : s.UnitInv) : (lzMatch n s).All State.UnitInv := by
  rcases lzMatch_cases n s with ⟨-, h⟩ | ⟨-, off, v, -, h⟩ | ⟨hn, hc, h⟩
  · exact .of_raised h hs
  · exact .of_raised h hs
  · have hlen : (lzTokens s.lzConfig s.input n).length ≤ s.params.tokCap :=
      (lzTokens_length_le hc _ n).trans (Nat.succ_le_succ hn)
    have hcap : s.params.tokCap ≤ 2 ^ 32 := by have := hs.legal.2.1; unfold Config.Params.tokCap; omega
    refine .of_ok h { hs with tok := hs.tok.put _ _ (by simpa using hlen), tokCount := ?_ }
    exact (Word.toNat_ofNat_of_lt (by omega)).trans_le hlen

/-- Counting keeps the table's length (R240). -/
theorem countSymbols_length {syms : List Nat} {i : Nat} {f g : List Nat} (h : countSymbols syms i f = .ok g) :
    g.length = f.length := by
  induction syms generalizing i f with
  | nil => cases h; rfl
  | cons sym syms ih =>
    rw [countSymbols] at h
    split at h
    · cases h
    · split at h
      · cases h
      · rw [ih h, List.length_set]

theorem freqCount_unitInv {s : State} (hs : s.UnitInv) : (freqCount s).All State.UnitInv := by
  rcases freqCount_cases s with ⟨f, hf, h⟩ | ⟨e, i, sym, -, h⟩
  · have hlen : f.length = Config.symbols := by rw [countSymbols_length hf, List.length_replicate]
    exact .of_ok h { hs with freq := hs.freq.put _ _ (by simp [hlen]) }
  · exact .of_raised h hs

theorem huffCodes_unitInv {s : State} (hs : s.UnitInv) : (huffCodes s).All State.UnitInv := by
  refine withTree_all hs fun t => ?_
  split
  · exact .of_raised rfl hs
  · exact .of_ok rfl { hs with code := hs.code.put _ _ (by simp) }

theorem huffSerialize_unitInv {s : State} (hs : s.UnitInv) : (huffSerialize s).All State.UnitInv :=
  withTree_all hs fun t => (writeAll_unitInv t.serialWrites hs).results _

theorem huffEncode_unitInv {s : State} (hs : s.UnitInv) : (huffEncode s).All State.UnitInv :=
  encodeTokens_unitInv _ _ _ hs

end Sys2Proof.Machine
end

section
/-! Trees in NODE: what HUFF_BUILD and HUFF_DESERIALIZE leave there is a complete tree (R35, R106, R242, R243, R271). -/

namespace Sys2Proof.Machine

/-! ## Stored trees -/

/-- A leaf's word reads back as that leaf (R106). -/
theorem NodeEntry.ofWord_toWord_leaf {sym : Nat} (h : sym < 2 ^ 9) :
    NodeEntry.ofWord (NodeEntry.leaf sym).toWord = .leaf sym := by
  have hv : (NodeEntry.leaf sym).toWord.toNat = sym + 2 ^ 63 := Word.toNat_ofNat_of_lt (by omega)
  have htag : bitField (sym + 2 ^ 63) 63 1 = 1 := by unfold bitField; omega
  have hsym : bitField (sym + 2 ^ 63) 0 9 = sym := by unfold bitField; omega
  rw [NodeEntry.ofWord, hv, if_pos htag, hsym]

/-- An internal node's word reads back as that node (R106). -/
theorem NodeEntry.ofWord_toWord_internal {sym l r : Nat} (h : sym < 2 ^ 9) (hl : l < 2 ^ 10) (hr : r < 2 ^ 10) :
    NodeEntry.ofWord (NodeEntry.internal sym l r).toWord = .internal sym l r := by
  have hv : (NodeEntry.internal sym l r).toWord.toNat = sym + l * 2 ^ 16 + r * 2 ^ 32 :=
    Word.toNat_ofNat_of_lt (by omega)
  have htag : bitField (sym + l * 2 ^ 16 + r * 2 ^ 32) 63 1 ≠ 1 := by unfold bitField; omega
  have hsym : bitField (sym + l * 2 ^ 16 + r * 2 ^ 32) 0 9 = sym := by unfold bitField; omega
  have hleft : bitField (sym + l * 2 ^ 16 + r * 2 ^ 32) 16 10 = l := by unfold bitField; omega
  have hright : bitField (sym + l * 2 ^ 16 + r * 2 ^ 32) 32 10 = r := by unfold bitField; omega
  rw [NodeEntry.ofWord, hv, if_neg htag, hsym, hleft, hright]

/-- The tree `t` stands in NODE, read by `read`, below index `i`, in elements [lo, hi) alone. -/
def CodeTree.StoredAt (read : Nat → Word) (lo hi : Nat) : CodeTree → Nat → Prop
  | .leaf sym, i => lo ≤ i ∧ i < hi ∧ NodeEntry.ofWord (read i) = .leaf sym
  | .node l r, i => lo ≤ i ∧ i < hi ∧ ∃ sym il ir, NodeEntry.ofWord (read i) = .internal sym il ir ∧
      l.StoredAt read lo hi il ∧ r.StoredAt read lo hi ir

theorem CodeTree.StoredAt.index_lt {read : Nat → Word} {lo hi : Nat} {t : CodeTree} {i : Nat}
    (h : t.StoredAt read lo hi i) : i < hi := by
  cases t <;> exact h.2.1

/-- A stored tree stays stored in a larger range whose old part reads the same. -/
theorem CodeTree.StoredAt.mono {read read' : Nat → Word} {lo hi lo' hi' : Nat} {t : CodeTree} {i : Nat}
    (h : t.StoredAt read lo hi i) (hread : ∀ j, lo ≤ j → j < hi → read' j = read j) (hlo : lo' ≤ lo) (hhi : hi ≤ hi') :
    t.StoredAt read' lo' hi' i := by
  induction t generalizing i with
  | leaf sym =>
    obtain ⟨h1, h2, h3⟩ := h
    exact ⟨hlo.trans h1, h2.trans_le hhi, by rw [hread i h1 h2, h3]⟩
  | node l r ihl ihr =>
    obtain ⟨h1, h2, sym, il, ir, h3, hl, hr⟩ := h
    exact ⟨hlo.trans h1, h2.trans_le hhi, sym, il, ir, by rw [hread i h1 h2, h3], ihl hl, ihr hr⟩

theorem CodeTree.size_pos (t : CodeTree) : 0 < t.size := by cases t <;> simp [CodeTree.size]

/-- A stored tree is the one the model reads, at any depth its size allows (R106). -/
theorem CodeTree.StoredAt.treeAt_eq {s : State} {lo hi : Nat} {t : CodeTree} {i : Nat}
    (h : t.StoredAt s.nodeAt lo hi i) {depth : Nat} (hd : t.size ≤ depth) : s.treeAt depth i = some t := by
  induction t generalizing i depth with
  | leaf sym =>
    cases depth with
    | zero => simp [CodeTree.size] at hd
    | succ depth => rw [State.treeAt, h.2.2]
  | node l r ihl ihr =>
    obtain ⟨-, -, sym, il, ir, hi, hl, hr⟩ := h
    have := l.size_pos
    have := r.size_pos
    simp only [CodeTree.size] at hd
    cases depth with
    | zero => omega
    | succ depth =>
      have htl := ihl hl (show l.size ≤ depth by omega)
      have htr := ihr hr (show r.size ≤ depth by omega)
      simp only [State.treeAt, hi, htl, htr]

/-! ## HUFF_BUILD -/

/-- Element i of a memory whose unwritten elements `fill` gives. -/
def Mem.read (m : Mem 64) (fill : Nat → Word) (i : Nat) : Word := (m.get? i).getD (fill i)

theorem Mem.read_put_singleton (m : Mem 64) (fill : Nat → Word) (i : Nat) (v : Word) (j : Nat) :
    (m.put i [v]).read fill j = if j = i then v else m.read fill j :=
  getD_get?_put_singleton m i v j (fill j)

/-- The queue holds the roots of trees stored below `nx`, which have `nx` nodes together (R242). -/
def QueueStored (read : Nat → Word) (nx : Nat) (q : List QueueNode) : Prop :=
  ∃ trees : List CodeTree, List.Forall₂ (fun x t => x.key < 2 ^ 9 ∧ t.StoredAt read 0 nx x.idx) q trees ∧
    (trees.map CodeTree.size).sum = nx

/-- popFirst takes one node out of a queue (R242). -/
theorem popFirst_perm {q q' : List QueueNode} {a : QueueNode} (h : popFirst q = some (a, q')) : q.Perm (a :: q') := by
  induction q generalizing a q' with
  | nil => cases h
  | cons x xs ih =>
    rw [popFirst] at h
    split at h
    · rename_i hn
      cases h
      cases xs with
      | nil => rfl
      | cons y ys =>
        rw [popFirst] at hn
        split at hn
        · cases hn
        · split at hn <;> cases hn
    · rename_i y rest hy
      split at h
      · cases h
        exact ((ih hy).cons x).trans (.swap _ _ _)
      · cases h
        rfl

theorem popFirst_eq_none_iff (q : List QueueNode) : popFirst q = none ↔ q = [] := by
  cases q with
  | nil => simp [popFirst]
  | cons x xs =>
    rw [popFirst]
    split
    · simp
    · split <;> simp

theorem QueueStored.perm {read : Nat → Word} {nx : Nat} {q q' : List QueueNode} (h : QueueStored read nx q)
    (hp : q.Perm q') : QueueStored read nx q' := by
  obtain ⟨trees, hq, hsum⟩ := h
  obtain ⟨trees', hq', hperm⟩ := List.perm_comp_forall₂ hp.symm hq
  exact ⟨trees', hq', ((hperm.map _).sum_eq).trans hsum⟩

/-- Two roots merged at `nx` leave a queue whose trees have one node more (R242). -/
theorem QueueStored.merge {m : Mem 64} {fill : Nat → Word} {nx : Nat} {a c : QueueNode} {q : List QueueNode}
    (h : QueueStored (m.read fill) nx (a :: c :: q)) (hnx : nx < 2 ^ 10) (weight : Nat) :
    QueueStored ((m.put nx [(NodeEntry.internal (min a.key c.key) a.idx c.idx).toWord]).read fill) (nx + 1)
      ({ weight := weight, key := min a.key c.key, idx := nx } :: q) := by
  obtain ⟨_, hall, hsum⟩ := h
  obtain ⟨ta, _, ⟨hka, hta⟩, hrest, rfl⟩ := List.forall₂_cons_left_iff.1 hall
  obtain ⟨tc, trees, ⟨hkc, htc⟩, hq, rfl⟩ := List.forall₂_cons_left_iff.1 hrest
  have hkey : min a.key c.key < 2 ^ 9 := by omega
  have hold (j : Nat) (_ : 0 ≤ j) (hj : j < nx) :
      (m.put nx [(NodeEntry.internal (min a.key c.key) a.idx c.idx).toWord]).read fill j = m.read fill j := by
    rw [Mem.read_put_singleton, if_neg (by omega)]
  refine ⟨.node ta tc :: trees, .cons ⟨hkey, Nat.zero_le nx, Nat.lt_succ_self nx, min a.key c.key, a.idx, c.idx,
    ?_, ?_, ?_⟩ ?_, ?_⟩
  · rw [Mem.read_put_singleton, if_pos rfl]
    exact NodeEntry.ofWord_toWord_internal hkey (hta.index_lt.trans hnx) (htc.index_lt.trans hnx)
  · exact hta.mono hold le_rfl (Nat.le_succ nx)
  · exact htc.mono hold le_rfl (Nat.le_succ nx)
  · exact hq.imp fun x t ⟨hk, ht⟩ => ⟨hk, ht.mono hold le_rfl (Nat.le_succ nx)⟩
  · simp only [List.map_cons, List.sum_cons, CodeTree.size] at hsum ⊢
    omega

/-- The merges end in one tree of all the nodes (R242, R243). -/
theorem huffMerge_stored {fill : Nat → Word} {fuel nx : Nat} {q : List QueueNode} {node : Mem 64}
    (hlen : q.length = fuel + 1) (hq : QueueStored (node.read fill) nx q) (hnx : nx + fuel ≤ 2 ^ 10) :
    ∃ t : CodeTree, t.size = nx + fuel ∧
      t.StoredAt ((huffMerge fuel q nx node).2.read fill) 0 (nx + fuel) (huffMerge fuel q nx node).1 := by
  induction fuel generalizing q nx node with
  | zero =>
    obtain ⟨x, rfl⟩ := List.length_eq_one_iff.1 hlen
    obtain ⟨trees, hq, hsum⟩ := hq
    cases hq with
    | cons hx hn =>
      cases hn
      exact ⟨_, by simpa using hsum, hx.2⟩
  | succ fuel ih =>
    cases ha : popFirst q with
    | none => rw [(popFirst_eq_none_iff q).1 ha] at hlen; cases hlen
    | some p =>
      obtain ⟨a, q1⟩ := p
      have hpa := popFirst_perm ha
      have hl1 : q1.length = fuel + 1 := by simpa [hlen] using hpa.length_eq.symm
      cases hc : popFirst q1 with
      | none => rw [(popFirst_eq_none_iff q1).1 hc] at hl1; cases hl1
      | some p =>
        obtain ⟨c, q2⟩ := p
        have hpc := popFirst_perm hc
        have hl2 : q2.length = fuel := by simpa [hl1] using hpc.length_eq.symm
        have hq2 := (hq.perm (hpa.trans (hpc.cons a))).merge (by omega) (a.weight + c.weight)
        obtain ⟨t, hsize, ht⟩ := ih (by simp [hl2]) hq2 (by omega)
        rw [Nat.add_right_comm, Nat.add_assoc] at hsize ht
        simp only [huffMerge, ha, hc]
        exact ⟨t, hsize, ht⟩

/-- The merges write below the last node (R242). -/
theorem huffMerge_fits {n fuel nx : Nat} {q : List QueueNode} {node : Mem 64} (h : node.Fits n) (hn : nx + fuel ≤ n) :
    (huffMerge fuel q nx node).2.Fits n := by
  induction fuel generalizing q nx node with
  | zero => exact h
  | succ fuel ih =>
    rw [huffMerge]
    split
    · exact h
    · split
      · exact h
      · exact ih (h.put _ _ (by simp only [List.length_singleton]; omega)) (by omega)

/-- HUFF_BUILD uses at most the 318 symbols of the alphabet (R110). -/
theorem usedSymbols_length_le (f : Nat → Nat) : (usedSymbols f).length ≤ 318 := by
  have hcount : (List.range Config.symbols).countP inAlphabet = 318 := by decide +kernel
  rw [← hcount, List.countP_eq_length_filter]
  refine (List.monotone_filter_right _ fun t ht => ?_).length_le
  exact (Bool.and_eq_true_iff.1 ht).1

theorem lt_of_mem_usedSymbols {f : Nat → Nat} {t : Nat} (h : t ∈ usedSymbols f) : t < 2 ^ 9 :=
  List.mem_range.1 (List.mem_filter.1 h).1

/-- The leaves HUFF_BUILD starts from are stored, one node each (R242). -/
theorem leafQueue_stored (f : Nat → Nat) {syms : List Nat} (hs : ∀ t ∈ syms, t < 2 ^ 9) (m : Mem 64) (fill : Nat → Word) :
    QueueStored ((m.put 0 (syms.map fun t => (NodeEntry.leaf t).toWord)).read fill) syms.length (leafQueue f syms) := by
  refine ⟨syms.map .leaf, ?_, by simp [Function.comp_def, CodeTree.size]⟩
  rw [List.forall₂_iff_get]
  refine ⟨by simp [leafQueue], fun j hj hj' => ?_⟩
  have hlt : j < syms.length := by simpa using hj'
  have hsym := hs _ (List.getElem_mem hlt)
  simp only [leafQueue, List.get_eq_getElem, List.getElem_map, List.getElem_zipIdx, Nat.zero_add]
  refine ⟨hsym, Nat.zero_le j, hlt, ?_⟩
  rw [Mem.read, getD_get?_put, if_pos ⟨by omega, by simpa using hlt⟩]
  simp [List.getD_eq_getElem?_getD, hlt, NodeEntry.ofWord_toWord_leaf hsym]

end Sys2Proof.Machine
end

section
/-! HUFF_BUILD and HUFF_DESERIALIZE keep the invariant of the units, and leave a complete tree (R35, R242, R271). -/

namespace Sys2Proof.Machine

/-- TREE_VALID = 1 only over a complete tree of TREE_NODES nodes at TREE_ROOT (R35). -/
def State.TreeHonest (s : State) : Prop :=
  s.tree.valid = true → s.tree?.any (fun t => t.size == s.tree.nodes.toNat) = true

/-- A stored tree that NODE_CAP bounds makes its registers honest (R35). -/
theorem State.treeHonest_of_stored {s : State} {t : CodeTree} {hi root : Nat} (hcap : hi ≤ s.params.nodeCap)
    (hlegal : s.params.nodeCap ≤ 1024) (hsize : t.size = hi) (ht : t.StoredAt s.nodeAt 0 hi root)
    (hroot : s.tree.root = Word.ofNat root) (hnodes : s.tree.nodes = Word.ofNat hi) : s.TreeHonest := by
  intro _
  have hr := ht.index_lt
  have hn : s.tree.nodes.toNat = t.size := by rw [hnodes, hsize]; exact Word.toNat_ofNat_of_lt (by omega)
  have hread : s.tree? = some t := by
    rw [State.tree?, hroot, Word.toNat_ofNat_of_lt (by omega)]
    exact ht.treeAt_eq (by omega)
  rw [hread, hn]
  simp

/-! ## HUFF_BUILD -/

/-- HUFF_BUILD ends in an error with TREE_VALID = 0, or the merges of its k leaves, 0 < k ≤ 318 (R242). -/
theorem huffBuild_gives (s : State) :
    (∃ e sym, huffBuild s = .raised e 0 sym { s with tree := { s.tree with valid := false } }) ∨
    ∃ syms, syms = usedSymbols s.freqNat ∧ 0 < syms.length ∧
      let built := huffMerge (syms.length - 1) (leafQueue s.freqNat syms) syms.length
        (s.node.put 0 (syms.map fun t => (NodeEntry.leaf t).toWord))
      huffBuild s = .ok (built.1, 2 * syms.length - 1, syms.length) { s with
        node := built.2
        tree := { root := Word.ofNat built.1, nodes := Word.ofNat (2 * syms.length - 1), valid := true } } := by
  unfold huffBuild
  simp only
  split
  · exact .inl ⟨_, _, rfl⟩
  · split
    · exact .inl ⟨_, _, rfl⟩
    · rename_i hk
      exact .inr ⟨_, rfl, Nat.pos_of_ne_zero hk, rfl⟩

theorem huffBuild_unitInv {s : State} (hs : s.UnitInv) : (huffBuild s).All State.UnitInv := by
  rcases huffBuild_gives s with ⟨e, sym, h⟩ | ⟨syms, hsyms, hk, h⟩
  · exact .of_raised h { hs with }
  · have hle : syms.length ≤ 318 := hsyms ▸ usedSymbols_length_le s.freqNat
    have hcap := hs.legal.2.2.2.2.1
    have hleaves := hs.node.put 0 (syms.map fun t => (NodeEntry.leaf t).toWord) (by rw [List.length_map]; omega)
    exact .of_ok h { hs with node := huffMerge_fits hleaves (show _ ≤ s.params.nodeCap by omega) }

/-- After HUFF_BUILD TREE_VALID is honest: it is 0, or NODE holds the tree just built (R35, R243). -/
theorem huffBuild_treeHonest {s : State} (hp : s.params.legal) :
    (huffBuild s).All fun t => t.params.legal ∧ t.TreeHonest := by
  rcases huffBuild_gives s with ⟨e, sym, h⟩ | ⟨syms, hsyms, hk, h⟩
  · exact .of_raised h ⟨hp, fun hv => by cases hv⟩
  · have hle : syms.length ≤ 318 := hsyms ▸ usedSymbols_length_le s.freqNat
    have hlt : ∀ t ∈ syms, t < 2 ^ 9 := fun t ht => lt_of_mem_usedSymbols (hsyms ▸ ht)
    have hcap := hp.2.2.2.2.1
    have hq := leafQueue_stored s.freqNat hlt s.node (Config.nodeFill s.ramEpoch)
    obtain ⟨t, hsize, ht⟩ := huffMerge_stored (fuel := syms.length - 1) (by simp [leafQueue]; omega) hq (by omega)
    rw [show syms.length + (syms.length - 1) = 2 * syms.length - 1 by omega] at hsize ht
    exact .of_ok h ⟨hp, State.treeHonest_of_stored (show _ ≤ s.params.nodeCap by omega) hp.2.2.2.2.2 hsize ht rfl rfl⟩

/-! ## HUFF_DESERIALIZE -/

theorem State.nodeAt_putNode_singleton (s : State) (k : Nat) (v : Word) (j : Nat) :
    (s.putNode k [v]).nodeAt j = if j = k then v else s.nodeAt j :=
  getD_get?_put_singleton s.node k v j _

/-- What des() leaves when it ends well: one tree in the elements it allocated, NODE elsewhere as it was (R271). -/
structure BuiltFrom (cnt : Nat) (s : State) (b : BuiltNode) (t : State) : Prop where
  inv : t.UnitInv
  params : t.params = s.params
  idx : b.idx = cnt
  cnt_le : b.cnt ≤ s.params.nodeCap
  least : b.least < 2 ^ 9
  outside : ∀ j, j < cnt ∨ b.cnt ≤ j → t.nodeAt j = s.nodeAt j
  stored : ∃ tree : CodeTree, cnt + tree.size = b.cnt ∧ tree.StoredAt t.nodeAt cnt b.cnt cnt

/-- A leaf in the next free element (R271). -/
theorem BuiltFrom.leaf {cnt sym : Nat} {s : State} (hs : s.UnitInv) (hc : cnt < s.params.nodeCap) (hsym : sym < 2 ^ 9) :
    BuiltFrom cnt s { idx := cnt, least := sym, cnt := cnt + 1 } (s.putNode cnt [(NodeEntry.leaf sym).toWord]) where
  inv := { hs with node := hs.node.put _ _ hc }
  params := rfl
  idx := rfl
  cnt_le := hc
  least := hsym
  outside j hj := by rw [State.nodeAt_putNode_singleton, if_neg (by dsimp only at hj; omega)]
  stored := ⟨.leaf sym, rfl, le_rfl, Nat.lt_succ_self cnt, by
    rw [State.nodeAt_putNode_singleton, if_pos rfl, NodeEntry.ofWord_toWord_leaf hsym]⟩

/-- An internal node in the element kept for it, over the two subtrees built after it (R271). -/
theorem BuiltFrom.node {cnt : Nat} {s s1 s2 : State} {l r : BuiltNode} (hc : cnt < s.params.nodeCap)
    (hl : BuiltFrom (cnt + 1) s l s1) (hr : BuiltFrom l.cnt s1 r s2) :
    BuiltFrom cnt s { idx := cnt, least := min l.least r.least, cnt := r.cnt }
      (s2.putNode cnt [(NodeEntry.internal (min l.least r.least) l.idx r.idx).toWord]) := by
  obtain ⟨tl, hsl, htl⟩ := hl.stored
  obtain ⟨tr, hsr, htr⟩ := hr.stored
  have hcap := hr.inv.legal.2.2.2.2.2
  have hparams : s2.params = s.params := hr.params.trans hl.params
  rw [hparams] at hcap
  have hlcap := hl.cnt_le
  have hrcap := hr.cnt_le
  rw [hl.params] at hrcap
  have := tl.size_pos
  have := tr.size_pos
  have hleast : min l.least r.least < 2 ^ 9 := by have := hl.least; omega
  have hat (j : Nat) (hj : j ≠ cnt) (v : Word) : (s2.putNode cnt [v]).nodeAt j = s2.nodeAt j := by
    rw [State.nodeAt_putNode_singleton, if_neg hj]
  refine ⟨{ hr.inv with node := hr.inv.node.put _ _ ?_ }, hparams, rfl, hrcap, hleast, fun j hj => ?_,
    .node tl tr, ?_, le_rfl, ?_, min l.least r.least, l.idx, r.idx, ?_, ?_, ?_⟩
  · rw [hparams]; exact hc
  · dsimp only at hj
    rw [hat j (by omega), hr.outside j (by omega), hl.outside j (by omega)]
  · simp only [CodeTree.size]; omega
  · dsimp only; omega
  · rw [State.nodeAt_putNode_singleton, if_pos rfl]
    exact NodeEntry.ofWord_toWord_internal hleast (by rw [hl.idx]; omega) (by rw [hr.idx]; omega)
  · rw [hl.idx]
    refine htl.mono (fun j hj hj' => ?_) (Nat.le_succ cnt) (by dsimp only; omega)
    rw [hat j (by omega), hr.outside j (by omega)]
  · rw [hr.idx]
    refine htr.mono (fun j hj hj' => ?_) (by omega) le_rfl
    rw [hat j (by omega)]

/-- des() builds a tree in the elements it allocates (R271). -/
theorem des_builds (depth cnt : Nat) {s : State} (hs : s.UnitInv) (hc : cnt ≤ s.params.nodeCap) :
    (des depth cnt s).Gives (BuiltFrom cnt s) State.UnitInv := by
  induction depth generalizing cnt s with
  | zero => exact .of_raised hs
  | succ depth ih =>
    unfold des
    split
    · exact .of_raised hs
    · have hlt : cnt < s.params.nodeCap := by omega
      refine ((readBits_unitInv 1 hs).raiseAs _ _ _).bind ?_
      rintro tag _ ⟨-, hs1, br, rfl⟩
      split
      · refine ((readBits_unitInv Config.leafBits hs1).raiseAs _ _ _).bind ?_
        rintro sym _ ⟨hsym, hs2, br2, rfl⟩
        have hb := BuiltFrom.leaf hs2 hlt hsym
        exact .of_ok { hb with }
      · refine (ih (cnt + 1) hs1 hlt).bind fun l s2 hl => ?_
        refine (ih l.cnt hl.inv (hl.params ▸ hl.cnt_le)).bind fun r s3 hr => ?_
        have hb := BuiltFrom.node (s := s) hlt { hl with } hr
        exact .of_ok { hb with }

theorem des_keeps_tree (depth cnt : Nat) (s : State) : (des depth cnt s).All fun t => t.tree = s.tree := by
  rcases des_cases depth cnt s with ⟨b, br, node, h⟩ | ⟨sym, br, node, h⟩
  · exact .of_ok h rfl
  · exact .of_raised h rfl

/-- HUFF_DESERIALIZE keeps the invariant of the units and leaves TREE_VALID honest; it is 1 on success (R35, R271). -/
theorem huffDeserialize_unitInv {s : State} (hs : s.UnitInv) : (huffDeserialize s).Gives
    (fun _ t => t.UnitInv ∧ t.TreeHonest ∧ t.tree.valid = true) (fun t => t.UnitInv ∧ t.TreeHonest) := by
  have hs' : State.UnitInv { s with tree := { s.tree with valid := false } } := { hs with }
  have hdes := des_builds (s.params.nodeCap + 1) 0 hs' (Nat.zero_le _)
  have htree := des_keeps_tree (s.params.nodeCap + 1) 0 { s with tree := { s.tree with valid := false } }
  refine Res.Gives.bind ⟨hdes.1, fun e pos sym t h => ⟨hdes.2 e pos sym t h, fun hv => ?_⟩⟩ fun b t hb => ?_
  · rw [htree.2 e pos sym t h] at hv
    cases hv
  · obtain ⟨tree, hsize, ht⟩ := hb.stored
    have hcap : b.cnt ≤ t.params.nodeCap := hb.params ▸ hb.cnt_le
    exact .of_ok ⟨{ hb.inv with }, State.treeHonest_of_stored hcap hb.inv.legal.2.2.2.2.2
      ((Nat.zero_add _).symm.trans hsize) ht rfl rfl, rfl⟩

end Sys2Proof.Machine
end

section
/-! Every command and every symbol keeps the invariant of registers and memories. -/

namespace Sys2Proof.Machine

theorem Res.Gives.goOn_inv {r : Res Unit} {t : State} (hr : r.Gives (fun _ t => t.Inv) State.UnitInv)
    (h : r.goOn = .next t) : t.Inv :=
  hr.goOn h (fun _ hu => hu) fun _ e pos sym hu => hu.raise e pos sym

/-! ## What honesty of the tree depends on -/

/-- The tree below an index depends on NODE's reads alone (R106). -/
theorem State.treeAt_congr {s t : State} (h : ∀ j, t.nodeAt j = s.nodeAt j) (depth i : Nat) :
    t.treeAt depth i = s.treeAt depth i := by
  induction depth generalizing i with
  | zero => rfl
  | succ depth ih => simp only [State.treeAt, h, ih]

/-- TREE_VALID stays honest while TREE_*, NODE and NODE_CAP stay (R35). -/
theorem State.TreeHonest.congr {s t : State} (h : s.TreeHonest) (htree : t.tree = s.tree)
    (hnode : ∀ j, t.nodeAt j = s.nodeAt j) (hparams : t.params = s.params) : t.TreeHonest := by
  intro hv
  rw [State.tree?, State.treeAt_congr hnode, hparams, htree]
  exact h (htree ▸ hv)

/-! ## The commands -/

theorem compress_unitInv (n dataType auxWidth : Nat) {s : State} (hs : s.UnitInv) :
    (compress n dataType auxWidth s).All State.UnitInv := by
  refine compress_all hs (fun s => lzMatch_unitInv n) (fun s => freqCount_unitInv) (fun s => huffBuild_unitInv)
    (fun s => huffCodes_unitInv) (fun s hs => ?_) (fun s => bwInit_unitInv 9) (fun s => huffSerialize_unitInv)
    (fun s => huffEncode_unitInv) (fun s => flush_unitInv)
  exact { hs with dst := hs.dst.put _ _ (by have := hs.legal.2.2.1; simpa [headerBytes] using this) }

/-- DECOMPRESS enters the decode loop inside the invariant, with a complete tree (R294). -/
theorem decompress_unitInv (m : Nat) {s : State} (hs : s.UnitInv) : (decompress m s).Gives
    (fun _ t => t.UnitInv ∧ t.TreeHonest ∧ t.tree.valid = true ∧ t.DecodeInv ∧ t.phase = .decoding ∧ t.status = s.status)
    (fun t => t.UnitInv ∧ (s.TreeHonest → t.TreeHonest)) := by
  have hs0 : State.UnitInv { s with outLen := 0 } := { hs with outLen := Nat.zero_le _ }
  have hraise : State.UnitInv { s with outLen := 0 } ∧ (s.TreeHonest → State.TreeHonest { s with outLen := 0 }) :=
    ⟨hs0, fun h => h.congr rfl (fun _ => rfl) rfl⟩
  refine .ite (fun _ => .of_raised hraise) fun _ => .ite (fun _ => .of_raised hraise) fun _ =>
    .ite (fun _ => .of_raised hraise) fun hlen => ?_
  have hinit := (brInit_unitInv 9 m hs0).and (brInit_sameButReader 9 m { s with outLen := 0 })
  have hread : ((brInit 9 m { s with outLen := 0 }).bind fun _ u => huffDeserialize u).Gives
      (fun _ t => (t.UnitInv ∧ t.TreeHonest ∧ t.tree.valid = true) ∧
        ∃ br node tree, t = { s with outLen := 0, br := br, node := node, tree := tree })
      (fun t => t.UnitInv ∧ (s.TreeHonest → t.TreeHonest)) := by
    refine Res.Gives.bind (hinit.gives.mono (fun _ _ h => h) ?_) ?_
    · rintro t ⟨ht, br, rfl⟩
      exact ⟨ht, fun h => h.congr rfl (fun _ => rfl) rfl⟩
    · rintro _ u ⟨hu, br, rfl⟩
      exact ((huffDeserialize_unitInv hu).and_all (huffDeserialize_sameButReadTree _)).mono
        (fun _ _ h => ⟨h.1, h.2.imp fun br h => h⟩) fun _ h => ⟨h.1.1, fun _ => h.1.2⟩
  refine hread.atOutLen.bind ?_
  rintro _ t ⟨⟨ht, hhonest, hvalid⟩, br, node, tree, rfl⟩
  exact .of_ok ⟨{ ht with }, hhonest.congr rfl (fun _ => rfl) rfl, hvalid,
    fun _ => ⟨Nat.zero_le _, Nat.le_of_not_lt hlen, rfl⟩, rfl, rfl⟩

/-- A command other than DECOMPRESS ends in the invariant (R143, R321). -/
theorem exec_command_inv {i : Instr} {s t : State} (hi : i.isCommand = true) (hd : i ≠ .decompress) (hs : s.UnitInv)
    (h : exec i s = .next t) : t.Inv := by
  cases i with
  | nop => exact Res.All.finish_inv (.of_ok rfl hs) h
  | bwInit => exact ((bwInit_unitInv _ hs).results _).finish_inv h
  | bwBits =>
    exact (Res.All.ite (fun _ => .of_raised rfl hs) fun _ => (writeBits_unitInv _ _ hs).results _).finish_inv h
  | bwFlush => exact ((flush_unitInv hs).results _).finish_inv h
  | brInit => exact ((brInit_unitInv _ _ hs).results _).finish_inv h
  | brBits =>
    exact (Res.All.ite (fun _ => .of_raised rfl hs) fun _ => (readBits_all_unitInv _ hs).results _).finish_inv h
  | lenEnc => exact (Res.All.ite (fun _ => .of_raised rfl hs) fun _ => .of_ok rfl hs).finish_inv h
  | lenDec =>
    refine Res.All.finish_inv ?_ h
    split
    · exact .of_raised rfl hs
    · exact .of_ok rfl hs
  | distEnc =>
    exact (Res.All.ite (fun _ => .of_raised rfl hs) fun _ =>
      .ite (fun _ => .of_raised rfl hs) fun _ => .of_ok rfl hs).finish_inv h
  | distDec =>
    refine Res.All.finish_inv ?_ h
    split
    · exact .of_raised rfl hs
    · exact .of_ok rfl hs
  | lzMatch => exact ((lzMatch_unitInv _ hs).results _).finish_inv h
  | freqCount => exact ((freqCount_unitInv hs).results _).finish_inv h
  | huffBuild =>
    rw [exec, execHuffBuild] at h
    exact ((huffBuild_unitInv hs).results _).finish_inv h
  | huffCodes => exact ((huffCodes_unitInv hs).results _).finish_inv h
  | huffSerialize => exact ((huffSerialize_unitInv hs).results _).finish_inv h
  | huffEncode => exact ((huffEncode_unitInv hs).results _).finish_inv h
  | huffDeserialize =>
    exact (((huffDeserialize_unitInv hs).mono (fun _ _ h => h.1) fun _ h => h.1).all (fun _ _ h => h)).results _
      |>.finish_inv h
  | huffDecodeSym =>
    exact (Res.All.ite (fun _ => .of_raised rfl hs) fun _ => (decodeSym_unitInv hs).results _).finish_inv h
  | compress => exact ((compress_unitInv s.arg0 s.arg1 s.arg2 hs).results _).finish_inv h
  | decompress => exact absurd rfl hd
  | _ => cases hi

/-- DECOMPRESS starts its loop, or ends, in the invariant: while it runs DONE and ERR are 0 (R24, R294). -/
theorem exec_decompress_inv {s t : State} (hs : s.Inv) (hb : s.busy = true) (h : exec .decompress s = .next t) :
    t.Inv := by
  obtain ⟨hu, ⟨hde, hbusy, hcode⟩, -, -⟩ := (State.inv_iff s).1 hs
  refine (decompress_unitInv _ hu).goOn h (fun t ht => ?_) fun _ e pos sym hu => hu.1.raise e pos sym
  obtain ⟨ht, -, -, hdec, hphase, hstatus⟩ := ht
  refine (State.inv_iff t).2 ⟨ht, ?_, hdec, fun hp => by rw [hphase] at hp; cases hp⟩
  rw [State.flagInv, hstatus]
  exact ⟨hde, fun _ => hbusy hb, hcode⟩

/-! ## The symbols -/

/-- A symbol that is not a distance code raises or has its own effect (R295, R298). -/
theorem asPrimary_next {P : State → Prop} {sym : Nat} {s t : State} {own : Host.Outcome State Fault Refusal}
    (h : asPrimary sym s own = .next t) (hraise : ∀ e pos sym, P (s.raise e pos sym)) (hown : own = .next t → P t) :
    P t := by
  unfold asPrimary at h
  split at h
  · cases h; exact hraise _ _ _
  · exact hown h

/-- Appending a byte inside DST (R296). -/
theorem appendByte_unitInv {s : State} (hs : s.UnitInv) (h : s.outLen.toNat < s.params.dstSize) (v : Byte) :
    (s.appendByte v).UnitInv ∧ (s.appendByte v).outLen.toNat = s.outLen.toNat + 1 := by
  have hd := hs.legal.2.2.2.1
  have hlen : (Word.ofNat (s.outLen.toNat + 1)).toNat = s.outLen.toNat + 1 := Word.toNat_ofNat_of_lt (by omega)
  exact ⟨{ hs with dst := hs.dst.put _ _ h, outLen := hlen.trans_le h }, hlen⟩

/-- The copy of `len` bytes inside DST (R298). -/
theorem copyBytes_unitInv {s : State} (hs : s.UnitInv) (dist len : Nat) (h : s.outLen.toNat + len ≤ s.params.dstSize) :
    (copyBytes dist len s).UnitInv ∧ (copyBytes dist len s).outLen.toNat = s.outLen.toNat + len := by
  induction len generalizing s with
  | zero => exact ⟨hs, rfl⟩
  | succ len ih =>
    obtain ⟨h1, hlen⟩ := appendByte_unitInv hs (by omega) (s.dstAt (s.outLen.toNat - dist))
    obtain ⟨h2, hlen'⟩ := ih h1 (by rw [hlen]; show _ ≤ s.params.dstSize; omega)
    exact ⟨h2, by rw [copyBytes, hlen', hlen]; omega⟩

theorem execEos_inv {s t : State} (hs : s.Inv) (h : execEos s = .next t) : t.Inv := by
  obtain ⟨hu, -, -, -⟩ := (State.inv_iff s).1 hs
  refine asPrimary_next h (hu.raise · · ·) fun h => ?_
  split at h
  · cases h; exact hu.raise _ _ _
  · cases h; exact hu.complete _

section
variable {s t : State} (hs : s.Inv) (hp : s.phase = .decoding)
include hs hp

theorem execLit_inv {v : Byte} (h : execLit v s = .next t) : t.Inv := by
  obtain ⟨hu, hf, hd, hl⟩ := (State.inv_iff s).1 hs
  obtain ⟨hout, hlen, hpend⟩ := hd hp
  refine asPrimary_next h (hu.raise · · ·) fun h => ?_
  split at h
  · cases h; exact hu.raise _ _ _
  · cases h
    obtain ⟨hu', hout'⟩ := appendByte_unitInv hu (by omega) v
    exact (State.inv_iff _).2 ⟨hu', hf, fun _ => ⟨hout'.trans_le (show _ ≤ s.dec.len by omega), hlen, hpend⟩, hl⟩

theorem execLength_inv {k : Nat} {i : Instr} (hk : (k, i) ∈ lengthSymbolTable) (h : execLength k s = .next t) : t.Inv := by
  obtain ⟨hu, hf, hd, hl⟩ := (State.inv_iff s).1 hs
  obtain ⟨hout, hlen, -⟩ := hd hp
  obtain ⟨b, e, hbase, hb, he, -⟩ := codeToLengthBase_of_mem _ hk
  refine asPrimary_next h (hu.raise · · ·) fun h => ?_
  rw [hbase] at h
  refine Res.Gives.goOn_inv ?_ h
  refine ((readBits_unitInv e hu).raiseAs _ _ _).bind ?_
  rintro x _ ⟨hx, hu', br, rfl⟩
  exact .of_ok ((State.inv_iff _).2 ⟨{ hu' with }, hf, fun _ => ⟨hout, hlen, by simp; omega⟩, hl⟩)

theorem execDistance_inv {k : Nat} (h : execDistance k s = .next t) : t.Inv := by
  obtain ⟨hu, hf, hd, hl⟩ := (State.inv_iff s).1 hs
  obtain ⟨hout, hlen, -⟩ := hd hp
  unfold execDistance at h
  split at h
  · cases h; exact hu.raise _ _ _
  · rename_i len hpend
    split at h
    · cases h; exact hu.raise _ _ _
    · rename_i db de _
      refine Res.Gives.goOn_inv ?_ h
      refine ((readBits_unitInv de hu).raiseAs _ _ _).bind ?_
      rintro x _ ⟨-, hu', br, rfl⟩
      refine .ite (fun _ => .of_raised hu') fun _ => .ite (fun _ => .of_raised hu') fun hcopy => ?_
      have hfit : s.outLen.toNat + len ≤ s.dec.len := Nat.le_of_not_lt hcopy
      obtain ⟨hcu, hcl⟩ := copyBytes_unitInv hu' (db + x) len (show s.outLen.toNat + len ≤ s.params.dstSize by omega)
      obtain ⟨dst, outLen, hc⟩ := copyBytes_frame (db + x) len { s with br := br }
      rw [hc] at hcu hcl ⊢
      exact .of_ok ((State.inv_iff _).2 ⟨{ hcu with }, hf, fun _ => ⟨hcl.trans_le hfit, hlen, rfl⟩, hl⟩)

end

/-- A symbol's instruction is a literal, EOS, or a row of R190's or R191's table (R110). -/
theorem decodeSymbol_eq_ok {sym : Nat} {i : Instr} (h : decodeSymbol sym = .ok i) :
    (∃ v, i = .lit v) ∨ i = .eos ∨ (∃ k, (k, i) ∈ lengthSymbolTable) ∨ ∃ k, (k, i) ∈ distanceSymbolTable := by
  unfold decodeSymbol at h
  split at h
  · cases h; exact .inl ⟨_, rfl⟩
  · split at h
    · cases h
    · split at h
      · rename_i j hj
        cases h
        have hmem := mem_of_lookupInstr _ _ _ hj
        rw [symbolTable, List.cons_append, List.mem_cons, List.mem_append] at hmem
        rcases hmem with heq | hmem | hmem
        · exact .inr (.inl (congrArg Prod.snd heq))
        · exact .inr (.inr (.inl ⟨sym, hmem⟩))
        · exact .inr (.inr (.inr ⟨sym, hmem⟩))
      · cases h

/-- A decoded symbol keeps the invariant (R295 to R299). -/
theorem runSymbol_inv {sym : Nat} {s t : State} (hs : s.Inv) (hp : s.phase = .decoding) (h : runSymbol sym s = .next t) :
    t.Inv := by
  have hu := ((State.inv_iff s).1 hs).1
  unfold runSymbol at h
  split at h
  · rename_i i hi
    rcases decodeSymbol_eq_ok hi with ⟨v, rfl⟩ | rfl | ⟨k, hk⟩ | ⟨k, hk⟩
    · exact execLit_inv hs hp h
    · exact execEos_inv hs h
    · rw [exec_of_mem_lengthSymbolTable s _ hk] at h
      exact execLength_inv hs hp hk h
    · rw [exec_of_mem_distanceSymbolTable s _ hk] at h
      exact execDistance_inv hs hp h
  · refine asPrimary_next h (hu.raise · · ·) fun h => ?_
    cases h; exact hu.raise _ _ _

/-- One pass of the decode loop keeps the invariant (R295). -/
theorem decodePass_inv {s t : State} (hs : s.Inv) (hp : s.phase = .decoding) (h : decodePass s = .next t) : t.Inv := by
  obtain ⟨hu, hf, hd, hl⟩ := (State.inv_iff s).1 hs
  have hall := ((decodeSym_unitInv hu).and (decodeSym_sameButReader s)).atOutLen
  unfold decodePass at h
  split at h
  · rename_i r s1 hr
    obtain ⟨hu', br, rfl⟩ := hall.1 _ _ hr
    exact runSymbol_inv ((State.inv_iff _).2 ⟨hu', hf, hd, hl⟩) hp h
  · rename_i e pos sym s1 hr
    cases h
    exact (hall.2 _ _ _ _ hr).1.raise _ _ _
  · cases h

/-- The Engine's turn keeps the invariant (R141, R144, R295, R333). -/
theorem engineStep_inv {s t : State} (hs : s.Inv) (h : engineStep s = .next t) : t.Inv := by
  have hu := ((State.inv_iff s).1 hs).1
  unfold engineStep at h
  split at h
  · cases h; exact hs
  · rename_i hp
    unfold runCommand at h
    split at h
    · rename_i i hi
      rcases eq_or_ne i .decompress with rfl | hne
      · exact exec_decompress_inv hs ((State.busy_eq_true_iff s).2 (by rw [hp]; decide)) h
      · exact exec_command_inv ((decodeCommand_eq_ok_iff _ i).1 hi).1 hne hu h
    · cases h; exact hu.raise _ _ _
  · exact decodePass_inv hs ‹_› h

end Sys2Proof.Machine
end

section
/-! The host port keeps the invariant of registers and memories, so every step does (R24 to R40, R80, R144, R352). -/

namespace Sys2Proof.Machine

theorem hostRead_inv (x : Target) {s : State} (hs : s.Inv) : (hostRead x s).Inv := by
  unfold hostRead
  split <;> exact hs

/-- The power-on values of legal parameters meet the units' invariant (R351). -/
theorem State.powerOn_unitInv {p : Config.Params} (hp : p.legal) : (State.powerOn p).UnitInv := by
  have hacc : (0 : Word).toNat < 2 ^ (0 : Word).toNat := by decide
  exact ⟨hp, Mem.fits_nil _, Mem.fits_nil _, Mem.fits_nil _, Mem.fits_nil _, Mem.fits_nil _, Mem.fits_nil _,
    ⟨Nat.zero_le _, hacc, Nat.zero_le _⟩, ⟨Nat.zero_le _, hacc, le_rfl, Nat.zero_le _⟩, Nat.zero_le _, Nat.zero_le _⟩

theorem State.softReset_phase (s : State) : s.softReset.phase = .idle := by
  unfold State.softReset; split <;> rfl

theorem State.softReset_status (s : State) : s.softReset.status = (State.powerOn s.params).status := by
  unfold State.softReset; split <;> rfl

theorem State.softReset_tree (s : State) : s.softReset.tree = (State.powerOn s.params).tree := by
  unfold State.softReset; split <;> rfl

/-- A soft reset gives the registers their power-on values, and keeps memories or empties them (R352). -/
theorem softReset_inv {s : State} (hs : s.UnitInv) : s.softReset.Inv := by
  have hp := State.powerOn_unitInv hs.legal
  have hu : s.softReset.UnitInv := by
    unfold State.softReset
    split
    · exact { hp with src := hs.src }
    · exact { hp with src := hs.src, dst := hs.dst, tok := hs.tok, freq := hs.freq, code := hs.code, node := hs.node }
  refine (State.inv_iff _).2 ⟨hu, ?_, fun hp => ?_, fun hp => ?_⟩
  · rw [State.flagInv, s.softReset_status]
    exact ⟨by simp [State.powerOn], fun _ => ⟨rfl, rfl⟩, rfl⟩
  · rw [s.softReset_phase] at hp; cases hp
  · rw [s.softReset_phase] at hp; cases hp

/-- A word that decodes to a command is a row of R101's table. -/
theorem mem_commandTable_of_decode {w : Nat} {i : Instr} (h : decodeCommand w = .ok i) : (w, i) ∈ commandTable := by
  unfold decodeCommand at h
  split at h
  · cases h
  · split at h
    · rename_i hj
      cases h
      exact mem_of_lookupInstr _ _ _ hj
    · cases h

/-- Accept latches a command's word alone; another word raises at once (R141, R144). -/
theorem submit_inv (w : Word) {s : State} (hs : s.UnitInv) : (s.submit w).Inv := by
  cases hd : decodeCommand w.toNat with
  | error r =>
    rw [State.submit_of_illegal s w r hd]
    have ha : (s.accept w).UnitInv := { hs with }
    exact ha.raise _ _ _
  | ok i =>
    rw [State.submit_of_command s w i hd]
    exact (State.inv_iff _).2 ⟨{ hs with }, ⟨by simp, fun _ => ⟨rfl, rfl⟩, rfl⟩, fun hp => (by cases hp),
      fun _ => ⟨_, mem_commandTable_of_decode hd, rfl⟩⟩

/-- A register write while BUSY = 0 keeps the invariant (R21 to R36). -/
theorem writeReg_inv (r : Reg) (v : Word) {s : State} (hs : s.Inv) : (writeReg r v s).Inv := by
  obtain ⟨hu, hf, hd, hl⟩ := (State.inv_iff s).1 hs
  cases r with
  | ctrl =>
    rw [writeReg, writeCtrl]
    split
    · exact softReset_inv hu
    · exact hs
  | cmd => exact submit_inv v hu
  | tokCount =>
    have hcap : s.params.tokCap ≤ 2 ^ 32 := by have := hu.legal.2.1; unfold Config.Params.tokCap; omega
    have hv : (Word.ofNat (min v.toNat s.params.tokCap)).toNat = min v.toNat s.params.tokCap :=
      Word.toNat_ofNat_of_lt (by omega)
    exact (State.inv_iff _).2 ⟨{ hu with tokCount := hv.trans_le (Nat.min_le_right _ _) }, hf, hd, hl⟩
  | _ => exact hs

/-- An element write while BUSY = 0 keeps the invariant (R40, R72). -/
theorem writeElem_inv {m : MemId} {i : Nat} (v : Word) {s : State} (hs : s.Inv) (hi : i < m.count s.params) :
    (writeElem m i v s).Inv := by
  obtain ⟨hu, hf, hd, hl⟩ := (State.inv_iff s).1 hs
  cases m with
  | src => exact (State.inv_iff _).2 ⟨{ hu with src := hu.src.put _ _ hi }, hf, hd, hl⟩
  | dst => exact (State.inv_iff _).2 ⟨{ hu with dst := hu.dst.put _ _ hi }, hf, hd, hl⟩
  | tok => exact (State.inv_iff _).2 ⟨{ hu with tok := hu.tok.put _ _ hi }, hf, hd, hl⟩
  | freq => exact (State.inv_iff _).2 ⟨{ hu with freq := hu.freq.put _ _ hi }, hf, hd, hl⟩
  | code => exact hs
  | node => exact hs

/-- A host write is dropped, or reaches the target it names (R80). -/
theorem hostWrite_inv {x : Target} (v : Word) {s : State} (hs : s.Inv)
    (hx : ∀ m i, x = .elem m i → i < m.count s.params) : (hostWrite x v s).Inv := by
  unfold hostWrite
  split
  · exact hs
  · split
    · exact writeReg_inv _ v hs
    · exact hs
    · exact writeElem_inv v hs (hx _ _ rfl)

/-- A port operation keeps the invariant (R72). -/
theorem portStep_inv {op : PortOp} {s t : State} (hs : s.Inv) (h : portStep op s = .next t) : t.Inv := by
  cases op with
  | read addr bytes =>
    rw [portStep] at h
    split at h
    · cases h; exact hostRead_inv _ hs
    · cases h
  | write addr bytes v =>
    rw [portStep] at h
    split at h
    · rename_i x hx
      cases h
      exact hostWrite_inv v hs fun m i hm => (of_accessTarget_eq_elem (hm ▸ hx)).1
    · cases h

/-- What a property of states needs to be kept by every step: that the port and the Engine keep it, and that it does not
depend on the turns to come (R4; log 5). -/
theorem step_keeps {P : State → Prop} {s t : State} (hs : P s) (hpending : ∀ s rest, P s → P { s with pending := rest })
    (hport : ∀ s t op, P s → portStep op s = .next t → P t) (hread : ∀ s, P s → P (hostRead (.reg .status) s))
    (hengine : ∀ s t, P s → engineStep s = .next t → P t) (h : step s = .next t) : P t := by
  cases hp : s.pending with
  | nil => exact hengine s t hs (step_of_nil s hp ▸ h)
  | cons turn rest =>
    cases turn with
    | port op => exact hport _ t op (hpending s rest hs) (step_of_port s op rest hp ▸ h)
    | engine => exact hengine _ t (hpending s rest hs) (step_of_engine s rest hp ▸ h)
    | poll =>
      rw [step_of_poll s rest hp, pollStep] at h
      split at h
      · exact hengine s t hs h
      · cases h; exact hread _ (hpending s rest hs)

/-- Settles O53: the port and the Engine keep the invariant, which says nothing of the turns to come. -/
theorem stepKeepsInvariant : Obligations.StepKeepsInvariant := fun _ _ hs h =>
  step_keeps hs (fun _ _ hs => hs) (fun _ _ _ => portStep_inv) (fun _ => hostRead_inv _) (fun _ _ => engineStep_inv) h

end Sys2Proof.Machine
end

section
/-! Every step keeps TREE_VALID honest (R35). -/

namespace Sys2Proof.Machine

/-! ## The Engine -/

/-- COMPRESS leaves TREE_VALID honest: only HUFF_BUILD writes NODE and TREE_* (R290). -/
theorem compress_treeHonest (n dataType auxWidth : Nat) {s : State} (hp : s.params.legal) (hs : s.TreeHonest) :
    (compress n dataType auxWidth s).All fun t => t.params.legal ∧ t.TreeHonest := by
  have keep {s t : State} (hs : s.params.legal ∧ s.TreeHonest) (htree : t.tree = s.tree) (hnode : ∀ j, t.nodeAt j = s.nodeAt j)
      (hparams : t.params = s.params) : t.params.legal ∧ t.TreeHonest :=
    ⟨hparams ▸ hs.1, hs.2.congr htree hnode hparams⟩
  apply compress_all ⟨hp, hs⟩
  case hbuild => exact fun s hs => huffBuild_treeHonest hs.1
  case hheader => exact fun s hs => keep hs rfl (fun _ => rfl) rfl
  case hmatch =>
    refine fun s hs => (lzMatch_sameButTokens n s).mono ?_
    rintro _ ⟨tok, count, rfl⟩
    exact keep hs rfl (fun _ => rfl) rfl
  case hfreq =>
    refine fun s hs => (freqCount_sameButFreq s).mono ?_
    rintro _ ⟨freq, rfl⟩
    exact keep hs rfl (fun _ => rfl) rfl
  case hcodes =>
    refine fun s hs => (huffCodes_sameButCode s).mono ?_
    rintro _ ⟨code, rfl⟩
    exact keep hs rfl (fun _ => rfl) rfl
  case hinit =>
    refine fun s hs => (bwInit_sameButBw 9 s).mono ?_
    rintro _ ⟨bw, rfl⟩
    exact keep hs rfl (fun _ => rfl) rfl
  case hserial =>
    refine fun s hs => (huffSerialize_sameButWriter s).mono ?_
    rintro _ ⟨dst, bw, rfl⟩
    exact keep hs rfl (fun _ => rfl) rfl
  case hencode =>
    refine fun s hs => (huffEncode_sameButWriter s).mono ?_
    rintro _ ⟨dst, bw, rfl⟩
    exact keep hs rfl (fun _ => rfl) rfl
  case hflush =>
    refine fun s hs => (flush_sameButWriter s).mono ?_
    rintro _ ⟨dst, bw, rfl⟩
    exact keep hs rfl (fun _ => rfl) rfl

/-- done keeps TREE_VALID honest, with the Engine IDLE. -/
theorem State.TreeHonest.complete {s : State} (h : s.TreeHonest) (r : Results) : (s.complete r).TreeInv :=
  ⟨h.congr rfl (fun _ => rfl) rfl, fun hp => by cases hp⟩

theorem State.TreeHonest.raise {s : State} (h : s.TreeHonest) (e : EngineError) (pos sym : Nat) :
    (s.raise e pos sym).TreeInv :=
  ⟨h.congr rfl (fun _ => rfl) rfl, fun hp => by cases hp⟩

theorem Res.All.finish_treeInv {r : Res Results} {t : State} (hr : r.All State.TreeHonest) (h : r.finish = .next t) :
    t.TreeInv :=
  hr.finish h (fun _ rs hu => hu.complete rs) fun _ e pos sym hu => hu.raise e pos sym

/-- Every instruction keeps the tree registers' invariant: four write them, the others keep TREE_* and NODE (R35, R51). -/
theorem exec_treeInv {i : Instr} {s t : State} (hs : s.UnitInv) (ht : s.TreeInv) (h : exec i s = .next t) : t.TreeInv := by
  by_cases hi : i ∈ [.huffBuild, .huffDeserialize, .compress, .decompress]
  · simp only [List.mem_cons, List.not_mem_nil, or_false] at hi
    rcases hi with rfl | rfl | rfl | rfl
    · rw [exec, execHuffBuild] at h
      exact (((huffBuild_treeHonest hs.legal).mono fun _ h => h.2).results _).finish_treeInv h
    · have hr : (huffDeserialize s).All State.TreeHonest :=
        (huffDeserialize_unitInv hs).mono (fun _ _ h => h.2.1) fun _ h => h.2
      exact (hr.results _).finish_treeInv h
    · exact (((compress_treeHonest s.arg0 s.arg1 s.arg2 hs.legal ht.1).mono fun _ h => h.2).results _).finish_treeInv h
    · exact (decompress_unitInv _ hs).goOn h (fun t h => ⟨h.2.1, fun _ => h.2.2.1⟩)
        fun _ e pos sym hu => (hu.2 ht.1).raise e pos sym
  · obtain ⟨htree, hnode⟩ := exec_keeps_tree h hi
    obtain ⟨-, -, -, -, -, -, -, hparams, -⟩ := execKeepsHostState i s t h
    refine ⟨State.TreeHonest.congr ht.1 htree hnode hparams, fun hp => ?_⟩
    rw [htree]
    rcases exec_phase h (fun hd => hi (by simp [hd])) with hp' | hp'
    · rw [hp'] at hp; cases hp
    · exact ht.2 (hp' ▸ hp)

/-- A pass of the decode loop keeps the tree it decodes with (R295). -/
theorem decodePass_treeInv {s t : State} (hs : s.UnitInv) (ht : s.TreeInv) (h : decodePass s = .next t) : t.TreeInv := by
  have hall := ((decodeSym_unitInv hs).and (decodeSym_sameButReader s)).atOutLen
  have hread (br : BitReader) : State.TreeHonest { s with br := br } := State.TreeHonest.congr ht.1 rfl (fun _ => rfl) rfl
  unfold decodePass at h
  split at h
  · rename_i r s1 hr
    obtain ⟨hu, br, rfl⟩ := hall.1 _ _ hr
    unfold runSymbol at h
    split at h
    · exact exec_treeInv hu ⟨hread br, ht.2⟩ h
    · exact asPrimary_next h ((hread br).raise · · ·) fun h => by cases h; exact (hread br).raise _ _ _
  · rename_i e pos sym s1 hr
    obtain ⟨-, br, rfl⟩ := hall.2 _ _ _ _ hr
    cases h
    exact (hread br).raise _ _ _
  · cases h

/-- The Engine's turn keeps the tree registers' invariant. -/
theorem engineStep_treeInv {s t : State} (hs : s.UnitInv) (ht : s.TreeInv) (h : engineStep s = .next t) : t.TreeInv := by
  unfold engineStep at h
  split at h
  · cases h; exact ht
  · unfold runCommand at h
    split at h
    · exact exec_treeInv hs ht h
    · cases h; exact State.TreeHonest.raise ht.1 _ _ _
  · exact decodePass_treeInv hs ht h

/-! ## The host port -/

/-- A host read changes neither the tree registers nor NODE (R77). -/
theorem hostRead_treeInv (x : Target) {s : State} (hs : s.TreeInv) : (hostRead x s).TreeInv := by
  unfold hostRead
  split <;> exact ⟨State.TreeHonest.congr hs.1 rfl (fun _ => rfl) rfl, hs.2⟩

/-- A soft reset sets TREE_VALID to 0 and the Engine to IDLE (R352). -/
theorem softReset_treeInv (s : State) : s.softReset.TreeInv := by
  refine ⟨fun hv => ?_, fun hp => ?_⟩
  · rw [s.softReset_tree] at hv; cases hv
  · rw [s.softReset_phase] at hp; cases hp

/-- Accept keeps a valid tree or gives it up (R35). -/
theorem submit_treeInv (w : Word) {s : State} (hs : s.TreeInv) : (s.submit w).TreeInv := by
  have ha : (s.accept w).TreeHonest := State.TreeHonest.congr hs.1 rfl (fun _ => rfl) rfl
  cases hd : decodeCommand w.toNat with
  | error r =>
    rw [State.submit_of_illegal s w r hd]
    exact ha.raise _ _ _
  | ok i =>
    rw [State.submit_of_command s w i hd]
    refine ⟨fun hv => ?_, fun hp => by cases hp⟩
    exact State.TreeHonest.congr hs.1 (s.tree.valid_of_accepted i hv) (fun _ => rfl) rfl hv

/-- No host write makes TREE_VALID dishonest: NODE takes none (R40), and CTRL and CMD only give the tree up (R35). -/
theorem hostWrite_treeInv (x : Target) (v : Word) {s : State} (hs : s.TreeInv) : (hostWrite x v s).TreeInv := by
  have keep {t : State} (htree : t.tree = s.tree) (hnode : ∀ j, t.nodeAt j = s.nodeAt j) (hparams : t.params = s.params)
      (hphase : t.phase = s.phase) : t.TreeInv :=
    ⟨State.TreeHonest.congr hs.1 htree hnode hparams, fun hp => by rw [htree]; exact hs.2 (hphase ▸ hp)⟩
  unfold hostWrite
  split
  · exact keep rfl (fun _ => rfl) rfl rfl
  · cases x with
    | reserved => exact hs
    | elem m i => cases m <;> exact keep rfl (fun _ => rfl) rfl rfl
    | reg r =>
      cases r with
      | ctrl =>
        simp only [writeReg, writeCtrl]
        split
        · exact softReset_treeInv s
        · exact hs
      | cmd => exact submit_treeInv v hs
      | _ => exact keep rfl (fun _ => rfl) rfl rfl

theorem portStep_treeInv {op : PortOp} {s t : State} (hs : s.TreeInv) (h : portStep op s = .next t) : t.TreeInv := by
  cases op with
  | read addr bytes =>
    rw [portStep] at h
    split at h
    · cases h; exact hostRead_treeInv _ hs
    · cases h
  | write addr bytes v =>
    rw [portStep] at h
    split at h
    · cases h; exact hostWrite_treeInv _ v hs
    · cases h

/-- Settles O54: of the instructions, HUFF_BUILD, HUFF_DESERIALIZE, COMPRESS and DECOMPRESS set TREE_VALID to 1, each over the
tree it has just stored; nothing else writes NODE. -/
theorem stepKeepsTreeInvariant : Obligations.StepKeepsTreeInvariant := by
  intro s t hs ht h
  have hu {s : State} (hs : s.Inv) : s.UnitInv := ((State.inv_iff s).1 hs).1
  have key : t.Inv ∧ t.TreeInv := step_keeps (P := fun s => s.Inv ∧ s.TreeInv) ⟨hs, ht⟩
    (fun s rest ⟨hs, ht⟩ => ⟨hs, State.TreeHonest.congr ht.1 rfl (fun _ => rfl) rfl, ht.2⟩)
    (fun s t op ⟨hs, ht⟩ h => ⟨portStep_inv hs h, portStep_treeInv ht h⟩)
    (fun s ⟨hs, ht⟩ => ⟨hostRead_inv _ hs, hostRead_treeInv _ ht⟩)
    (fun s t ⟨hs, ht⟩ h => ⟨engineStep_inv hs h, engineStep_treeInv (hu hs) ht h⟩) h
  exact key.2

end Sys2Proof.Machine
end

section
/-! What a host read returns, and what becomes of a host write while BUSY (R77, R78, R80). -/

namespace Sys2Proof.Machine

/-- An access moves as many bytes as the target it names holds (R71, R72). -/
theorem accessWidth_of_accessTarget {p : Config.Params} {addr bytes : Nat} {x : Target}
    (hx : accessTarget p addr bytes = some x) : accessWidth x = bytes := by
  cases x with
  | reg r => exact ((accessTarget_eq_reg_iff p addr bytes r).1 hx).2.symm
  | reserved =>
    obtain ⟨-, -, hb, -⟩ := (accessTarget_eq_reserved_iff p addr bytes).1 hx
    exact hb.symm
  | elem m i =>
    obtain ⟨-, hb, -⟩ := of_accessTarget_eq_elem hx
    exact hb.symm

/-- The registers the Engine writes while BUSY (R78). -/
def engineRegs : List Reg :=
  [.errPos, .errSym, .res0, .res1, .res2, .res3, .bwPos, .bwAcc, .bwCnt, .bwTotal,
    .brPos, .brEnd, .brAcc, .brCnt, .tokCount, .treeRoot, .treeNodes, .treeValid, .outLen]

theorem regFreeWhileBusy_iff (r : Reg) : regFreeWhileBusy r = true ↔ r ∈ engineRegs := by
  cases r <;> decide

/-- What reads free while BUSY is what the Engine writes: those registers, and every memory but SRC (R78). -/
theorem freeWhileBusy_iff (x : Target) : freeWhileBusy x = true ↔
    (∃ m i, m ≠ .src ∧ x = .elem m i) ∨ (∃ r, r ∈ engineRegs ∧ x = .reg r) := by
  cases x with
  | reg r => simp [freeWhileBusy, regFreeWhileBusy_iff]
  | reserved => simp [freeWhileBusy]
  | elem m i => simp [freeWhileBusy]

/-- A read while BUSY = 0 is exact (R77). -/
theorem hostRead_of_not_busy {s : State} (hb : s.busy = false) (x : Target) :
    hostRead x s = { s with portData := s.targetValue x } := by
  rw [hostRead, hb]
  rfl

/-- A read while BUSY of what the Engine writes draws the next free value (R78; log 3). -/
theorem hostRead_of_busy_of_free {s : State} {x : Target} (hb : s.busy = true) (hf : freeWhileBusy x = true) :
    hostRead x s = { s with portData := freeReadValue x s.draws, draws := s.draws + 1 } := by
  rw [hostRead, hb, hf]
  rfl

/-- A write while BUSY to anything but CTRL is dropped (R80; log 11). -/
theorem hostWrite_of_busy {s : State} {x : Target} (hb : s.busy = true) (hx : x ≠ .reg .ctrl) (v : Word) :
    hostWrite x v s = { s with status := s.status.dropped } :=
  if_pos (by simp [hb, hx])

/-- TREE_VALID as a word (R35). -/
theorem State.regValue_treeValid (s : State) : s.regValue .treeValid = if s.tree.valid then 1 else 0 := by
  rw [State.regValue]
  cases s.tree.valid <;> rfl

/-! ## The statements -/

/-- Settles O9: BUSY is the same with the turn taken off, so the write is dropped. -/
theorem busyWriteIsDropped : Obligations.BusyWriteIsDropped := by
  intro s addr bytes v x rest hb hp hx hne
  rw [step_of_write hp hx, hostWrite_of_busy (s := { s with pending := rest }) hb hne]
  rfl

/-- Settles O10: the reads are free exactly where the Engine writes, and a free value is as wide as the access. -/
theorem hostReads : Obligations.HostReads := by
  intro s registers
  refine ⟨?_, rfl, fun i => ?_, fun addr bytes x rest hp hx => ?_⟩
  · simp only [registers, ← State.regValue_treeValid, List.forall_mem_cons, List.not_mem_nil, false_imp_iff,
      implies_true, and_true]
    and_intros <;> rfl
  · simp only [← Mem.get?_eq_lookup]
    and_intros <;> rfl
  · intro engineWritten
    have hfree : freeWhileBusy x = true ↔ engineWritten := freeWhileBusy_iff x
    rw [step_of_read hp hx]
    refine ⟨fun h => congrArg _ ?_, fun hb hw => congrArg _ ?_⟩
    · rcases h with hb | hw
      · exact hostRead_of_not_busy (s := { s with pending := rest }) hb x
      · exact hostRead_of_not_free (Bool.eq_false_iff.2 (mt hfree.1 hw)) _
    · rw [hostRead_of_busy_of_free (s := { s with pending := rest }) hb (hfree.2 hw), freeReadValue,
        accessWidth_of_accessTarget hx]

end Sys2Proof.Machine
end

section
/-! Which bytes are an instruction's word, and which words are none (R73, R100 to R102, R110). -/

namespace Sys2Proof

/-! ## Table lookups -/

theorem lookupInstr_eq_none_iff (table : List (Nat × Instr)) (k : Nat) :
    lookupInstr table k = none ↔ k ∉ table.map Prod.fst := by
  simp only [lookupInstr, Option.map_eq_none_iff, List.find?_eq_none, beq_iff_eq, List.mem_map, not_exists, not_and]

/-- In a table that lists no number twice, a lookup finds exactly the rows. -/
theorem lookupInstr_eq_some_iff {table : List (Nat × Instr)} (hkeys : (table.map Prod.fst).Nodup) (k : Nat) (i : Instr) :
    lookupInstr table k = some i ↔ (k, i) ∈ table := by
  refine ⟨mem_of_lookupInstr table k i, fun hrow => ?_⟩
  cases hj : lookupInstr table k with
  | none => exact absurd (List.mem_map_of_mem hrow) ((lookupInstr_eq_none_iff table k).1 hj)
  | some j =>
    have hrows : (k, j) = (k, i) := List.inj_on_of_nodup_map hkeys (mem_of_lookupInstr table k j hj) hrow rfl
    cases hrows
    rfl

/-- The OPCODEs in use (R101). -/
theorem mem_commandTable_keys_iff (k : Nat) : k ∈ commandTable.map Prod.fst ↔
    k < 0x06 ∨ (0x08 ≤ k ∧ k < 0x0C) ∨ k = 0x10 ∨ (0x18 ≤ k ∧ k < 0x1D) ∨ (0x20 ≤ k ∧ k < 0x22) ∨ (0x30 ≤ k ∧ k < 0x32) := by
  have hkeys : commandTable.map Prod.fst = List.range' 0 6 ++ List.range' 0x08 4 ++ [0x10] ++ List.range' 0x18 5 ++
      List.range' 0x20 2 ++ List.range' 0x30 2 := rfl
  simp only [hkeys, List.mem_append, List.mem_range'_1, List.mem_singleton]
  omega

/-- The symbols in use above the literals: EOS with the lengths, and the distances (R110). -/
theorem mem_symbolTable_keys_iff (k : Nat) :
    k ∈ symbolTable.map Prod.fst ↔ (256 ≤ k ∧ k < 286) ∨ (300 ≤ k ∧ k < 332) := by
  have hkeys : symbolTable.map Prod.fst = List.range' 256 30 ++ List.range' 300 32 := rfl
  simp only [hkeys, List.mem_append, List.mem_range'_1]

/-! ## Words -/

/-- The commands have words of their own, and every other instruction is a symbol (R100, R110). -/
theorem Instr.format_eq (i : Instr) : i.format = if i.isCommand then .cmd64 else .sym9 := by
  cases i <;> rfl

theorem Instr.mem_symbolTable {i : Instr} (h : i.isCommand = false) (hlit : ∀ v, i ≠ .lit v) :
    (i.wordValue, i) ∈ symbolTable := by
  cases i with
  | lit v => exact absurd rfl (hlit v)
  | _ => revert h; decide +kernel

/-- A row of the symbol table decodes to its instruction (R110). -/
theorem decodeSymbol_of_mem {k : Nat} {i : Instr} (hrow : (k, i) ∈ symbolTable) : decodeSymbol k = .ok i := by
  have hk := (mem_symbolTable_keys_iff k).1 (List.mem_map_of_mem hrow)
  rw [decodeSymbol, if_neg (by omega), if_neg (by omega),
    (lookupInstr_eq_some_iff symbolTable_keys_nodup k i).2 hrow]

theorem decodeSymbol_lit (v : Byte) : decodeSymbol v.toNat = .ok (.lit v) := by
  rw [decodeSymbol, if_pos v.isLt, BitVec.ofNat_toNat, BitVec.setWidth_eq]

/-- A symbol decodes to an instruction exactly when it is that instruction's (R110). -/
theorem decodeSymbol_eq_ok_iff (sym : Nat) (i : Instr) :
    decodeSymbol sym = .ok i ↔ i.isCommand = false ∧ sym = i.wordValue := by
  constructor
  · intro h
    unfold decodeSymbol at h
    split at h
    case isTrue hlt =>
      cases h
      exact ⟨rfl, (Nat.mod_eq_of_lt hlt).symm⟩
    case isFalse =>
      split at h
      case isTrue => cases h
      case isFalse =>
        split at h
        case h_1 hj =>
          cases h
          have hrow := mem_of_lookupInstr _ _ _ hj
          have hsym : ∀ row ∈ symbolTable, row.2.isCommand = false := by decide +kernel
          exact ⟨hsym _ hrow, (symbolTable_wordValue _ hrow).symm⟩
        case h_2 => cases h
  · rintro ⟨hc, rfl⟩
    by_cases hlit : ∃ v, i = .lit v
    · obtain ⟨v, rfl⟩ := hlit
      exact decodeSymbol_lit v
    · exact decodeSymbol_of_mem (Instr.mem_symbolTable hc (not_exists.1 hlit))

theorem Instr.wordValue_lt (i : Instr) : i.wordValue < 2 ^ (8 * i.format.bytes) := by
  cases i with
  | lit v => exact Laws.WordFits.lit v
  | _ => exact Laws.WordFits.of_check rfl

/-- As many bytes as an instruction's format has spell its word exactly when they are its encoding (R73). -/
theorem natOfBytesLE_eq_wordValue_iff (bytes : List Byte) (i : Instr) :
    (bytes.length = i.format.bytes ∧ natOfBytesLE bytes = i.wordValue) ↔ bytes = encode i := by
  constructor
  · rintro ⟨hlen, hval⟩
    rw [encode, ← hlen, ← hval, bytesLE_natOfBytesLE]
  · rintro rfl
    exact ⟨bytesLE_length _ _, natOfBytesLE_bytesLE _ _ i.wordValue_lt⟩

/-- Decoding bytes of the right number is decoding the number they spell (R100, R110). -/
theorem decode_eq_ok_iff (f : Format) (bytes : List Byte) (i : Instr) :
    decode f bytes = .ok i ↔ bytes.length = f.bytes ∧ i.format = f ∧ natOfBytesLE bytes = i.wordValue := by
  unfold decode
  by_cases hlen : bytes.length = f.bytes
  · cases f <;> simp [hlen, decodeCommand_eq_ok_iff, decodeSymbol_eq_ok_iff, Instr.format_eq]
  · simp [hlen]

/-! ## The statements -/

/-- Settles O1: the decoder answers the instruction whose word the bytes spell, and bytes and numbers undo each other. -/
theorem decodeEncodeAgree : Obligations.DecodeEncodeAgree := by
  intro f bytes i
  rw [decode_eq_ok_iff, ← natOfBytesLE_eq_wordValue_iff]
  constructor
  · rintro ⟨hlen, rfl, hval⟩
    exact ⟨rfl, hlen, hval⟩
  · rintro ⟨rfl, hlen, hval⟩
    exact ⟨hlen, rfl, hval⟩

/-- Settles O2: each row writes out the encoding of its instruction. -/
theorem specWordsDecode : Obligations.SpecWordsDecode := by
  refine ⟨?_, ?_, ?_, ?_, ?_, ?_, ?_, ?_, ?_, ?_, ?_⟩ <;> exact (decodeEncodeAgree _ _ _).2 ⟨rfl, rfl⟩

/-- A command word is rejected for its reserved bits, or because no row of the table has it (R102). -/
theorem decodeCommand_error_iff (w : Nat) :
    (∃ r, decodeCommand w = .error r) ↔ w / 2 ^ 8 ≠ 0 ∨ w ∉ commandTable.map Prod.fst := by
  rw [← lookupInstr_eq_none_iff, decodeCommand]
  by_cases hw : w / 2 ^ 8 ≠ 0
  · rw [if_pos hw]
    exact iff_of_true ⟨_, rfl⟩ (.inl hw)
  · rw [if_neg hw, or_iff_right hw]
    cases lookupInstr commandTable w <;> simp

/-- A 9-bit symbol is rejected when it is no literal and no row of the table has it (R110). -/
theorem decodeSymbol_error_iff {sym : Nat} (h : sym < 512) :
    (∃ r, decodeSymbol sym = .error r) ↔ 256 ≤ sym ∧ sym ∉ symbolTable.map Prod.fst := by
  rw [← lookupInstr_eq_none_iff, decodeSymbol, if_neg (show ¬512 ≤ sym by omega)]
  by_cases hlit : sym < 256
  · simp [hlit]
  · rw [if_neg hlit, and_iff_right (not_lt.1 hlit)]
    cases lookupInstr symbolTable sym <;> simp

/-- Settles O3: the rejected words are those between the table's runs. -/
theorem unassignedWordsAreRejected : Obligations.UnassignedWordsAreRejected := by
  refine ⟨fun w => ?_, fun sym h => ?_⟩
  · rw [decodeCommand_error_iff, mem_commandTable_keys_iff]
    omega
  · rw [decodeSymbol_error_iff h, mem_symbolTable_keys_iff]
    omega

end Sys2Proof
end

section
/-! What a sequence of writeBits calls appends to the writer's stream, and where it stops (R160, R162, R246). -/

namespace Sys2Proof.Machine

/-! ## Bits of a sequence of writes -/

@[simp] theorem totalBits_nil : totalBits [] = 0 := rfl

@[simp] theorem totalBits_cons (v n : Nat) (ws : List (Nat × Nat)) : totalBits ((v, n) :: ws) = n + totalBits ws := rfl

@[simp] theorem totalBits_append (ws ws' : List (Nat × Nat)) : totalBits (ws ++ ws') = totalBits ws + totalBits ws' := by
  simp [totalBits]

@[simp] theorem bitsOfWrites_nil : bitsOfWrites [] = [] := rfl

@[simp] theorem bitsOfWrites_cons (v n : Nat) (ws : List (Nat × Nat)) :
    bitsOfWrites ((v, n) :: ws) = bitsOf n v ++ bitsOfWrites ws := rfl

@[simp] theorem bitsOfWrites_append (ws ws' : List (Nat × Nat)) :
    bitsOfWrites (ws ++ ws') = bitsOfWrites ws ++ bitsOfWrites ws' := List.flatMap_append

@[simp] theorem bitsOfWrites_length (ws : List (Nat × Nat)) : (bitsOfWrites ws).length = totalBits ws := by
  induction ws with
  | nil => rfl
  | cons w ws ih =>
    obtain ⟨v, n⟩ := w
    rw [bitsOfWrites_cons, totalBits_cons, List.length_append, bitsOf_length, ih]

/-! ## Room and growth -/

/-- DST has room for `k` more bits: their whole bytes fit (R162). -/
def State.Fits (s : State) (k : Nat) : Prop := s.bw.pos.toNat + (s.bw.cnt.toNat + k) / 8 ≤ s.params.dstSize

theorem State.fits_zero {s : State} (h : s.writerInv) : s.Fits 0 := by
  obtain ⟨hcnt, -, hpos⟩ := h
  unfold State.Fits
  omega

theorem State.Fits.mono {s : State} {k k' : Nat} (h : s.Fits k') (hk : k ≤ k') : s.Fits k := by
  unfold State.Fits at *
  omega

/-- From `s` to `t` the writer has appended `bits`: only DST and BW_* differ, the bits stand at the end of the stream, and
BW_TOTAL has counted them (R160, R162). -/
structure State.Wrote (s t : State) (bits : List Bool) : Prop where
  frame : ∃ dst bw, t = { s with dst := dst, bw := bw }
  inv : t.writerInv
  bitPos : 8 * t.bw.pos.toNat + t.bw.cnt.toNat = 8 * s.bw.pos.toNat + s.bw.cnt.toNat + bits.length
  total : t.bw.total = s.bw.total + Word.ofNat bits.length
  stream : ∀ o, o ≤ s.bw.pos.toNat → t.writerBits o = s.writerBits o ++ bits

theorem State.Wrote.refl {s : State} (h : s.writerInv) : s.Wrote s [] where
  frame := ⟨s.dst, s.bw, rfl⟩
  inv := h
  bitPos := rfl
  total := (add_zero _).symm
  stream := fun _ _ => (List.append_nil _).symm

section
variable {s t u : State} {bits bits' : List Bool}

theorem State.Wrote.params (h : s.Wrote t bits) : t.params = s.params := by
  obtain ⟨_, _, rfl⟩ := h.frame
  rfl

theorem State.Wrote.codeAt (h : s.Wrote t bits) (i : Nat) : t.codeAt i = s.codeAt i := by
  obtain ⟨_, _, rfl⟩ := h.frame
  rfl

theorem State.Wrote.fits_iff (hs : s.writerInv) (h : s.Wrote t bits) (k : Nat) : t.Fits k ↔ s.Fits (bits.length + k) := by
  have hpos := h.bitPos
  have hcnt := h.inv.1
  have hcnt' := hs.1
  unfold State.Fits
  rw [h.params]
  omega

theorem State.Wrote.trans (hs : s.writerInv) (h : s.Wrote t bits) (h' : t.Wrote u bits') : s.Wrote u (bits ++ bits') where
  frame := by
    obtain ⟨_, _, rfl⟩ := h.frame
    obtain ⟨dst, bw, rfl⟩ := h'.frame
    exact ⟨dst, bw, rfl⟩
  inv := h'.inv
  bitPos := by rw [h'.bitPos, h.bitPos, List.length_append, Nat.add_assoc]
  total := by rw [h'.total, h.total, add_assoc, List.length_append, Word.ofNat, Word.ofNat, Word.ofNat, BitVec.ofNat_add]
  stream := fun o ho => by
    have hpos := h.bitPos
    have hcnt := h.inv.1
    have hcnt' := hs.1
    rw [h'.stream o (by omega), h.stream o ho, List.append_assoc]

/-! ## Writing -/

/-- With room, writeBits appends its bits (R162). -/
theorem writeBits_wrote (hp : s.params.legal) {v n : Nat} (hfit : s.Fits n) :
    ∃ t, writeBits v n s = .ok () t ∧ s.Wrote t (bitsOf n v) := by
  obtain ⟨dst, bw, h⟩ := writeBits_of_fits v n s hfit
  obtain ⟨-, -, -, hdst, -⟩ := hp
  obtain ⟨hframe, hpos, hcnt, htotal, hinv, -, hstream⟩ := writeBits_spec v n s _ hdst h
  refine ⟨_, h, hframe, hinv, ?_, by rw [bitsOf_length]; exact htotal, hstream⟩
  rw [hpos, hcnt, bitsOf_length]
  omega

theorem writeBits_of_not_fits {v n : Nat} (hfull : ¬s.Fits n) :
    writeBits v n s = .raised .capacityExceeded s.bw.pos.toNat n s :=
  writeBits_of_full v n s (not_le.1 hfull)

/-- With room for all, the sequence appends all its bits. -/
theorem writeAll_wrote (ws : List (Nat × Nat)) (hp : s.params.legal) (hs : s.writerInv) (hfit : s.Fits (totalBits ws)) :
    ∃ t, writeAll ws s = .ok () t ∧ s.Wrote t (bitsOfWrites ws) := by
  induction ws generalizing s with
  | nil => exact ⟨s, rfl, .refl hs⟩
  | cons w ws ih =>
    obtain ⟨v, n⟩ := w
    obtain ⟨t, ht, hw⟩ := writeBits_wrote (v := v) hp (hfit.mono (Nat.le_add_right n _))
    obtain ⟨u, hu, hw'⟩ := ih (hw.params ▸ hp) hw.inv ((hw.fits_iff hs _).2 (by rwa [bitsOf_length]))
    exact ⟨u, by rw [writeAll, ht, Res.bind_ok, hu], hw.trans hs hw'⟩

/-- Without room for all, the sequence stops at the first call without room and keeps the earlier ones (R246). -/
theorem writeAll_stops (ws : List (Nat × Nat)) (hp : s.params.legal) (hs : s.writerInv) (hfull : ¬s.Fits (totalBits ws)) :
    ∃ t before v n after, ws = before ++ (v, n) :: after ∧ s.Fits (totalBits before) ∧ ¬s.Fits (totalBits before + n) ∧
      writeAll ws s = .raised .capacityExceeded t.bw.pos.toNat n t ∧ s.Wrote t (bitsOfWrites before) := by
  induction ws generalizing s with
  | nil => exact absurd (State.fits_zero hs) hfull
  | cons w ws ih =>
    obtain ⟨v, n⟩ := w
    by_cases hn : s.Fits n
    · obtain ⟨t, ht, hw⟩ := writeBits_wrote (v := v) hp hn
      have hroom := hw.fits_iff hs
      simp only [bitsOf_length] at hroom
      obtain ⟨u, before, v', n', after, rfl, hb, hb', hu, hw'⟩ :=
        ih (hw.params ▸ hp) hw.inv (mt (hroom _).1 hfull)
      refine ⟨u, (v, n) :: before, v', n', after, rfl, (hroom _).1 hb, ?_, ?_, hw.trans hs hw'⟩
      · rwa [hroom, ← Nat.add_assoc] at hb'
      · rw [writeAll, ht, Res.bind_ok, hu]
    · refine ⟨s, [], v, n, ws, rfl, State.fits_zero hs, by simpa using hn, ?_, .refl hs⟩
      rw [writeAll, writeBits_of_not_fits hn, Res.bind_raised]

/-! ## The end of a command that wrote -/

/-- What the statements say of a command that wrote `bits` and is done (R143). -/
theorem State.Wrote.complete (h : s.Wrote t bits) (r : Results) :
    ((∀ o, o ≤ s.bw.pos.toNat → (t.complete r).writerBits o = s.writerBits o ++ bits) ∧
      (t.complete r).bw.total = s.bw.total + Word.ofNat bits.length) ∧
      t.complete r = State.afterDone { s with dst := (t.complete r).dst, bw := (t.complete r).bw } (s.res.setResults r) := by
  refine ⟨⟨h.stream, h.total⟩, ?_⟩
  obtain ⟨_, _, rfl⟩ := h.frame
  rfl

/-- What the statements say of a command that wrote `bits` and then raised (R321). -/
theorem State.Wrote.raise (h : s.Wrote t bits) (e : EngineError) (pos sym : Nat) :
    ((∀ o, o ≤ s.bw.pos.toNat → (t.raise e pos sym).writerBits o = s.writerBits o ++ bits) ∧
      (t.raise e pos sym).bw.total = s.bw.total + Word.ofNat bits.length) ∧
      t.raise e pos sym =
        State.afterRaise { s with dst := (t.raise e pos sym).dst, bw := (t.raise e pos sym).bw } e pos sym := by
  refine ⟨⟨h.stream, h.total⟩, ?_⟩
  obtain ⟨_, _, rfl⟩ := h.frame
  rfl

end

end Sys2Proof.Machine
end

section
/-! HUFF_SERIALIZE appends the serialized tree (R114, R246). -/

namespace Sys2Proof.Machine

theorem CodeTree.leaves_pos (tree : CodeTree) : 0 < tree.leaves := by
  induction tree with
  | leaf => exact Nat.one_pos
  | node l r ihl _ => exact Nat.add_pos_left ihl _

/-- The writes of a tree are its serialized form (R114). -/
theorem CodeTree.bitsOfWrites_serialWrites (tree : CodeTree) : bitsOfWrites tree.serialWrites = tree.serialBits := by
  induction tree with
  | leaf sym => rfl
  | node l r ihl ihr => rw [serialWrites, bitsOfWrites_cons, bitsOfWrites_append, ihl, ihr]; rfl

/-- A tree of k leaves takes 11k - 1 bits (R247). -/
theorem CodeTree.totalBits_serialWrites (tree : CodeTree) : totalBits tree.serialWrites = 11 * tree.leaves - 1 := by
  induction tree with
  | leaf sym => rfl
  | node l r ihl ihr =>
    have := l.leaves_pos
    have := r.leaves_pos
    rw [serialWrites, totalBits_cons, totalBits_append, ihl, ihr, leaves]
    omega

/-- The arm of HUFF_SERIALIZE (R246). -/
theorem exec_huffSerialize (s : State) : exec .huffSerialize s =
    ((huffSerialize s).bind fun k t => .ok { Results.none with r0 := some k } t).finish := rfl

/-- HUFF_SERIALIZE on a tree is its writes, then done (R246). -/
theorem exec_huffSerialize_of_tree {s : State} {tree : CodeTree} (hv : s.tree.valid = true) (ht : s.tree? = some tree) :
    exec .huffSerialize s = ((writeAll tree.serialWrites s).bind fun _ t =>
      .ok { Results.none with r0 := some (11 * tree.leaves - 1) } t).finish := by
  rw [exec_huffSerialize, huffSerialize, withTree_of_tree s _ tree hv ht, tree.totalBits_serialWrites]
  cases writeAll tree.serialWrites s <;> rfl

/-- Settles O39: the writes go through when the tree's 11k - 1 bits fit, and stop at the first without room otherwise. -/
theorem huffSerializeAppends : Obligations.HuffSerializeAppends := by
  refine ⟨fun _ => rfl, fun _ _ => rfl, fun s hp hs => ?_⟩
  intro fits
  refine ⟨fun tree hv ht => ⟨fun hfit => ?_, fun hfull => ?_⟩, fun hv => ?_⟩
  · rw [← tree.totalBits_serialWrites] at hfit
    obtain ⟨t, hw, hwrote⟩ := writeAll_wrote tree.serialWrites hp hs hfit
    obtain ⟨⟨hstream, htotal⟩, hend⟩ := hwrote.complete { Results.none with r0 := some (11 * tree.leaves - 1) }
    rw [tree.bitsOfWrites_serialWrites] at hstream
    rw [bitsOfWrites_length, tree.totalBits_serialWrites] at htotal
    exact ⟨_, by rw [exec_huffSerialize_of_tree hv ht, hw]; rfl, hstream, htotal, hend⟩
  · rw [← tree.totalBits_serialWrites] at hfull
    obtain ⟨t, before, v, n, after, hsplit, hfit, hfull, hw, hwrote⟩ := writeAll_stops tree.serialWrites hp hs hfull
    obtain ⟨⟨hstream, htotal⟩, hend⟩ := hwrote.raise .capacityExceeded t.bw.pos.toNat n
    rw [bitsOfWrites_length] at htotal
    exact ⟨_, before, v, n, after, hsplit, hfit, hfull, by rw [exec_huffSerialize_of_tree hv ht, hw]; rfl, hstream, htotal,
      hend⟩
  · rw [exec_huffSerialize, huffSerialize, withTree_of_invalid s _ hv]
    rfl

end Sys2Proof.Machine
end

section
/-! HUFF_ENCODE appends each token's code and extra bits (R115, R248). -/

namespace Sys2Proof.Machine

/-- VALID, LEN and BITS of a CODE element (R105). -/
theorem CodeEntry.ofWord_eq (w : Word) : CodeEntry.ofWord w =
    { valid := w.getLsbD 63, len := w.toNat / 2 ^ 56 % 2 ^ 6, bits := w.toNat % 2 ^ 56 } := by
  have hvalid : (bitField w.toNat 63 1 == 1) = w.getLsbD 63 := by
    rw [BitVec.getLsbD, Nat.testBit_eq_decide_div_mod_eq]
    rfl
  rw [CodeEntry.ofWord, hvalid, bitField, bitField, Nat.pow_zero, Nat.div_one]

/-- The CODE entry of a token's symbol (R248). -/
def State.entryOf (s : State) (x : Token) : CodeEntry := CodeEntry.ofWord (s.codeAt x.sym)

theorem State.tokenBits_eq (s : State) (x : Token) :
    s.tokenBits x = bitsOf (s.entryOf x).len (s.entryOf x).bits ++ bitsOf x.xbits x.xval := rfl

/-- The arm of HUFF_ENCODE (R248). -/
theorem exec_huffEncode (s : State) : exec .huffEncode s =
    ((encodeTokens s.tokens 0 0 s).bind fun k t => .ok { Results.none with r0 := some k } t).finish := rfl

theorem exec_huffEncode_of_ok {s t : State} {k : Nat} (h : encodeTokens s.tokens 0 0 s = .ok k t) :
    exec .huffEncode s = .next (t.complete { Results.none with r0 := some k }) := by
  rw [exec_huffEncode, h, Res.bind_ok, Res.finish_ok]

theorem exec_huffEncode_of_raised {s t : State} {e : EngineError} {pos sym : Nat}
    (h : encodeTokens s.tokens 0 0 s = .raised e pos sym t) : exec .huffEncode s = .next (t.raise e pos sym) := by
  rw [exec_huffEncode, h, Res.bind_raised, Res.finish_raised]

section
variable {s t : State} {bits : List Bool} {x : Token}

theorem State.Wrote.entryOf (h : s.Wrote t bits) (x : Token) : t.entryOf x = s.entryOf x :=
  congrArg CodeEntry.ofWord (h.codeAt x.sym)

theorem State.Wrote.tokenBits (h : s.Wrote t bits) : t.tokenBits = s.tokenBits :=
  funext fun x => by rw [State.tokenBits_eq, State.tokenBits_eq, h.entryOf]

/-! ## One token -/

section
variable (toks : List Token) (i k : Nat)

/-- A token without a valid code stops the loop (R248). -/
theorem encodeTokens_of_uncoded (hv : (s.entryOf x).valid = false) :
    encodeTokens (x :: toks) i k s = .raised .unsupportedSymbol i x.sym s := by
  rw [State.entryOf] at hv
  simp [encodeTokens, hv]

/-- A token with a valid code is two writes, then the rest (R248). -/
theorem encodeTokens_of_coded (hv : (s.entryOf x).valid = true) :
    encodeTokens (x :: toks) i k s = (writeBits (s.entryOf x).bits (s.entryOf x).len s).bind fun _ s1 =>
      (writeBits x.xval x.xbits s1).bind fun _ s2 => encodeTokens toks (i + 1) (k + (s.entryOf x).len + x.xbits) s2 := by
  rw [State.entryOf] at hv ⊢
  simp [encodeTokens, hv]

/-- A code without room stops the loop (R248). -/
theorem encodeTokens_of_code_full (hv : (s.entryOf x).valid = true) (hfull : ¬s.Fits (s.entryOf x).len) :
    encodeTokens (x :: toks) i k s = .raised .capacityExceeded s.bw.pos.toNat (s.entryOf x).len s := by
  rw [encodeTokens_of_coded _ _ _ hv, writeBits_of_not_fits hfull, Res.bind_raised]

end

variable (hp : s.params.legal) (hs : s.writerInv)
include hp hs

/-- Extra bits without room stop the loop after the code (R248). -/
theorem encodeTokens_of_extra_full (hv : (s.entryOf x).valid = true) (hfit : s.Fits (s.entryOf x).len)
    (hfull : ¬s.Fits ((s.entryOf x).len + x.xbits)) (toks : List Token) (i k : Nat) :
    ∃ t, encodeTokens (x :: toks) i k s = .raised .capacityExceeded t.bw.pos.toNat x.xbits t ∧
      s.Wrote t (bitsOf (s.entryOf x).len (s.entryOf x).bits) := by
  obtain ⟨t, ht, hw⟩ := writeBits_wrote (v := (s.entryOf x).bits) hp hfit
  have hfull' : ¬t.Fits x.xbits := by rwa [hw.fits_iff hs, bitsOf_length]
  exact ⟨t, by rw [encodeTokens_of_coded _ _ _ hv, ht, Res.bind_ok, writeBits_of_not_fits hfull', Res.bind_raised], hw⟩

/-- With room, a coded token's bits are appended and the loop goes on (R248). -/
theorem encodeTokens_cons_wrote (hv : (s.entryOf x).valid = true) (hfit : s.Fits (s.tokenBits x).length) (i k : Nat) :
    ∃ t, s.Wrote t (s.tokenBits x) ∧
      ∀ toks, encodeTokens (x :: toks) i k s = encodeTokens toks (i + 1) (k + (s.tokenBits x).length) t := by
  simp only [State.tokenBits_eq, List.length_append, bitsOf_length] at *
  obtain ⟨t, ht, hw⟩ := writeBits_wrote (v := (s.entryOf x).bits) hp (hfit.mono (Nat.le_add_right _ _))
  obtain ⟨u, hu, hw'⟩ := writeBits_wrote (s := t) (v := x.xval) (n := x.xbits) (hw.params ▸ hp)
    ((hw.fits_iff hs _).2 (by rwa [bitsOf_length]))
  exact ⟨u, hw.trans hs hw',
    fun toks => by rw [encodeTokens_of_coded _ _ _ hv, ht, Res.bind_ok, hu, Res.bind_ok, Nat.add_assoc]⟩

/-! ## A run of tokens -/

/-- With room, the bits of coded tokens are appended and the loop goes on with what follows them (R248). -/
theorem encodeTokens_append_wrote {before : List Token} (hv : ∀ y ∈ before, (s.entryOf y).valid = true)
    (hfit : s.Fits (before.flatMap s.tokenBits).length) (i k : Nat) :
    ∃ t, s.Wrote t (before.flatMap s.tokenBits) ∧ ∀ toks, encodeTokens (before ++ toks) i k s =
      encodeTokens toks (i + before.length) (k + (before.flatMap s.tokenBits).length) t := by
  induction before generalizing s i k with
  | nil => exact ⟨s, .refl hs, fun _ => rfl⟩
  | cons y before ih =>
    rw [List.flatMap_cons, List.length_append] at *
    obtain ⟨hvy, hv⟩ := List.forall_mem_cons.1 hv
    obtain ⟨t, hw, ht⟩ := encodeTokens_cons_wrote hp hs hvy (hfit.mono (Nat.le_add_right _ _)) i k
    obtain ⟨u, hw', hu⟩ := ih (hw.params ▸ hp) hw.inv (fun z hz => by rw [hw.entryOf, hv z hz])
      (by rwa [hw.tokenBits, hw.fits_iff hs]) (i + 1) (k + (s.tokenBits y).length)
    rw [hw.tokenBits] at hw' hu
    exact ⟨u, hw.trans hs hw', fun toks => by
      rw [List.cons_append, ht, hu, List.length_cons, Nat.add_assoc, Nat.add_assoc, Nat.add_comm 1]⟩

end

/-- Settles O41: the coded tokens before the first failing one are written, and that one's own case decides the end. -/
theorem huffEncodeAppends : Obligations.HuffEncodeAppends := by
  intro s hp hs entry item fits wrote
  have hentry : entry = s.entryOf := funext fun x => (CodeEntry.ofWord_eq _).symm
  have hitem : item = s.tokenBits := funext fun x => by rw [State.tokenBits_eq, ← hentry]
  clear_value entry item
  subst hentry hitem
  refine ⟨fun hv hfit => ?_, fun before x after hsplit hv => ?_⟩
  · obtain ⟨t, hw, hrun⟩ := encodeTokens_append_wrote hp hs hv hfit 0 0
    have hdone := hrun []
    rw [List.append_nil, Nat.zero_add, Nat.zero_add] at hdone
    exact ⟨_, exec_huffEncode_of_ok hdone, hw.complete _⟩
  · intro bits code
    have hcode : code.length = bits.length + (s.entryOf x).len := by rw [List.length_append, bitsOf_length]
    have hbefore : s.Fits bits.length → ∃ t, s.Wrote t bits ∧ t.entryOf x = s.entryOf x ∧
        encodeTokens s.tokens 0 0 s = encodeTokens (x :: after) before.length bits.length t := fun hfit => by
      obtain ⟨t, hw, hrun⟩ := encodeTokens_append_wrote hp hs hv hfit 0 0
      exact ⟨t, hw, hw.entryOf x, by rw [hsplit, hrun, Nat.zero_add, Nat.zero_add]⟩
    refine ⟨fun hfit hvx => ?_, fun hfit hvx hfull => ?_, fun hfit hvx hfull => ?_⟩
    · obtain ⟨t, hw, hx, hrun⟩ := hbefore hfit
      rw [encodeTokens_of_uncoded _ _ _ (hx ▸ hvx)] at hrun
      exact ⟨_, exec_huffEncode_of_raised hrun, hw.raise _ _ _⟩
    · obtain ⟨t, hw, hx, hrun⟩ := hbefore hfit
      have hfull' : ¬t.Fits (t.entryOf x).len := by rwa [hw.fits_iff hs, hx, ← hcode]
      rw [encodeTokens_of_code_full _ _ _ (hx ▸ hvx) hfull', hx] at hrun
      exact ⟨_, exec_huffEncode_of_raised hrun, hw.raise _ _ _⟩
    · obtain ⟨t, hw, hx, hrun⟩ := hbefore (State.Fits.mono hfit (hcode ▸ Nat.le_add_right _ _))
      have hfit' : t.Fits (t.entryOf x).len := by rwa [hw.fits_iff hs, hx, ← hcode]
      have hfull' : ¬t.Fits ((t.entryOf x).len + x.xbits) := by rwa [hw.fits_iff hs, hx, ← Nat.add_assoc, ← hcode]
      obtain ⟨u, hu, hw'⟩ := encodeTokens_of_extra_full (hw.params ▸ hp) hw.inv (hx ▸ hvx) hfit' hfull' after _ _
      rw [hu] at hrun
      rw [hx] at hw'
      exact ⟨_, exec_huffEncode_of_raised hrun, (hw.trans hs hw').raise _ _ _⟩

end Sys2Proof.Machine
end

section
/-! A command from the write of CMD to the Engine's turn that runs it (R27, R35, R141, R142, R144). -/

namespace Sys2Proof.Machine

/-- A word's value as its command decodes to it (R100). -/
theorem decodeCommand_toNat_ofNat {i : Instr} (hi : i.isCommand = true) :
    decodeCommand (Word.ofNat i.wordValue).toNat = .ok i := by
  have hlt := i.wordValue_lt
  rw [i.format_eq, if_pos hi] at hlt
  rw [Word.toNat_ofNat_of_lt hlt, decodeCommand_wordValue i hi]

/-- A write to CMD while BUSY = 0 submits its word (R27). -/
theorem step_of_write_cmd {s : State} {w : Word} {rest : List Turn} (hi : s.phase = .idle)
    (hp : s.pending = .port (.write 0x028 8 w) :: rest) :
    step s = .next (State.submit { s with pending := rest } w) :=
  step_of_write_reg hi hp ((accessTarget_eq_reg_iff _ _ _ .cmd).2 ⟨rfl, rfl⟩)

theorem replacesTree_iff (i : Instr) : replacesTree i = true ↔ i = .huffBuild ∨ i = .huffDeserialize := by
  simp [replacesTree]

/-- Settles O6: the word decodes to no command, so the write that submits it raises. -/
theorem illegalCommandRaises : Obligations.IllegalCommandRaises := by
  intro s w rest hi hp hw
  obtain ⟨r, hr⟩ := (decodeCommand_eq_error_iff w.toNat).2 hw
  refine ⟨_, step_of_write_cmd hi hp, State.submit_of_illegal _ w r hr, ?_⟩
  rw [State.submit_of_illegal _ w r hr, State.statusWord]
  simp only [State.busy_raise, State.raise_status, State.accept_status, Status.failed_done, Status.failed_err,
    Status.failed_wdrop, Status.failed_code, Status.accepted_wdrop]
  cases s.status.wdrop <;> rfl

/-- Settles O7: the word decodes to its command, so the write that submits it is an accept. -/
theorem cmdWriteIsAccepted : Obligations.CmdWriteIsAccepted := by
  rintro s i _ rest hc rfl hi hp
  have htree : s.tree.accepted i =
      { s.tree with valid := if i = .huffBuild ∨ i = .huffDeserialize then false else s.tree.valid } := by
    by_cases h : i = .huffBuild ∨ i = .huffDeserialize
    · rw [if_pos h, TreeRegs.accepted, (replacesTree_iff i).2 h, Bool.not_true, Bool.and_false]
    · rw [if_neg h, TreeRegs.accepted, Bool.eq_false_iff.2 (mt (replacesTree_iff i).1 h), Bool.not_false, Bool.and_true]
  rw [step_of_write_cmd hi hp, State.submit_of_command _ _ i (decodeCommand_toNat_ofNat hc), ← htree]
  rfl

/-- Settles O4: whichever turn lets the Engine move leaves the phase and the latches as they are. -/
theorem stepRunsLatchedCommand : Obligations.StepRunsLatchedCommand := by
  intro s s0 i hmove hp hdec
  have hbusy : s.busy = true := (State.busy_eq_true_iff s).2 (by simp [hp])
  obtain ⟨hp0, hcmd⟩ : s0.phase = s.phase ∧ s0.latchCmd = s.latchCmd := by
    rcases hmove with ⟨_, _, rfl⟩ | ⟨_, _, rfl⟩ | ⟨_, rfl⟩ <;> exact ⟨rfl, rfl⟩
  rw [step_of_engineMovesFrom s s0 hmove hbusy]
  simp only [engineStep, hp0, hp, runCommand, hcmd, hdec]

/-- Settles O18: NOP is done with no results. -/
theorem nopCompletes : Obligations.NopCompletes := fun _ => rfl

end Sys2Proof.Machine
end

section
/-! Every command ends, with DONE or ERR: no rule is stuck where TREE_VALID is honest (R143, R146, R321; log 10). -/

namespace Sys2Proof.Machine

variable {α β : Type}

/-! ## The end of a command -/

/-- A command has just ended in `t`, well or with an error. -/
def State.Ended (t : State) : Prop := (∃ u rs, t = State.complete u rs) ∨ ∃ u e pos sym, t = State.raise u e pos sym

theorem State.Ended.of_complete (u : State) (rs : Results) : (u.complete rs).Ended := .inl ⟨u, rs, rfl⟩

theorem State.Ended.of_raise (u : State) (e : EngineError) (pos sym : Nat) : (u.raise e pos sym).Ended :=
  .inr ⟨u, e, pos, sym, rfl⟩

theorem State.Ended.phase {t : State} (h : t.Ended) : t.phase = .idle := by
  rcases h with ⟨u, rs, rfl⟩ | ⟨u, e, pos, sym, rfl⟩ <;> rfl

/-- done sets DONE and clears the error, raise sets ERR with its code and zeroes RES. -/
theorem State.Ended.outcome {t : State} (h : t.Ended) :
    (t.status.done = true ∧ t.status.err = false ∧ t.status.code = none ∧ t.errPos = 0 ∧ t.errSym = 0) ∨
    (t.status.done = false ∧ t.status.err = true ∧ t.status.code ≠ none ∧
      t.res = { r0 := 0, r1 := 0, r2 := 0, r3 := 0 }) := by
  rcases h with ⟨u, rs, rfl⟩ | ⟨u, e, pos, sym, rfl⟩
  · exact .inl ⟨rfl, rfl, rfl, rfl, rfl⟩
  · exact .inr ⟨rfl, rfl, nofun, rfl⟩

theorem Res.finish_ended {r : Res Results} {t : State} (h : r.finish = .next t) : t.Ended := by
  rcases (Res.finish_eq_next_iff r t).1 h with ⟨rs, u, -, rfl⟩ | ⟨e, pos, sym, u, -, rfl⟩
  · exact .of_complete u rs
  · exact .of_raise u e pos sym

/-! ## Rules that end -/

/-- The rule ends: it walks no tree without end (log 10). -/
def Res.Ends (r : Res α) : Prop := ∀ f, r ≠ .stuck f

section
variable {r r' : Res α}

theorem Res.Ends.of_ok {a : α} {s : State} (h : r = .ok a s) : r.Ends := by rintro f rfl; cases h

theorem Res.Ends.of_raised {e : EngineError} {pos sym : Nat} {s : State} (h : r = .raised e pos sym s) : r.Ends := by
  rintro f rfl; cases h

/-- A sequence ends when each rule does in the states the one before leaves. -/
theorem Res.Ends.bind {P : State → Prop} {k : α → State → Res β} (hr : r.Ends) (hP : r.All P)
    (hk : ∀ a s, P s → (k a s).Ends) : (r.bind k).Ends := by
  cases r with
  | ok a s => exact hk a s (hP.1 a s rfl)
  | raised e pos sym s => exact .of_raised rfl
  | stuck f => exact absurd rfl (hr f)

theorem Res.all_true (r : Res α) : r.All fun _ => True :=
  ⟨fun _ _ _ => trivial, fun _ _ _ _ _ => trivial⟩

/-- A sequence of rules that end in any state. -/
theorem Res.Ends.andThen {k : α → State → Res β} (hr : r.Ends) (hk : ∀ a s, (k a s).Ends) : (r.bind k).Ends :=
  hr.bind r.all_true fun a s _ => hk a s

theorem Res.Ends.results (hr : r.Ends) (f : α → State → β) : (r.bind fun a t => .ok (f a t) t).Ends :=
  hr.andThen fun _ _ => .of_ok rfl

theorem Res.Ends.ite {c : Prop} [Decidable c] (h : r.Ends) (h' : r'.Ends) : (if c then r else r').Ends := by
  split <;> assumption

theorem Res.Ends.atOutLen (hr : r.Ends) : r.atOutLen.Ends := by
  cases r with
  | ok a s => exact hr
  | raised e pos sym s => exact .of_raised rfl
  | stuck f => exact absurd rfl (hr f)

end

theorem Res.Ends.finish {r : Res Results} (hr : r.Ends) : ∃ t, r.finish = .next t := by
  cases r with
  | ok rs s => exact ⟨_, rfl⟩
  | raised e pos sym s => exact ⟨_, rfl⟩
  | stuck f => exact absurd rfl (hr f)

theorem Res.Ends.goOn {r : Res Unit} (hr : r.Ends) : ∃ t, r.goOn = .next t := by
  cases r with
  | ok rs s => exact ⟨_, rfl⟩
  | raised e pos sym s => exact ⟨_, rfl⟩
  | stuck f => exact absurd rfl (hr f)

theorem writeBits_ends (v n : Nat) (s : State) : (writeBits v n s).Ends := by
  rcases writeBits_cases v n s with ⟨t, h⟩ | ⟨-, h⟩
  · exact .of_ok h
  · exact .of_raised h

theorem flush_ends (s : State) : (flush s).Ends := by
  rcases flush_cases s with ⟨dst, bw, h⟩ | h
  · exact .of_ok h
  · exact .of_raised h

theorem bwInit_ends (o : Nat) (s : State) : (bwInit o s).Ends := .ite (.of_raised rfl) (.of_ok rfl)

theorem brInit_ends (a e : Nat) (s : State) : (brInit a e s).Ends := .ite (.of_raised rfl) (.of_ok rfl)

theorem readBits_ends (n : Nat) (s : State) : (readBits n s).Ends := .ite (.of_raised rfl) (.of_ok rfl)

theorem checkConfig_ends (s : State) : (checkConfig s).Ends := by
  cases h : s.lzConfig.firstBad with
  | none => exact .of_ok (checkConfig_of_ok s h)
  | some x => exact .of_raised (checkConfig_of_bad s x.1 x.2 h)

theorem lzMatch_ends (n : Nat) (s : State) : (lzMatch n s).Ends :=
  .ite (.of_raised rfl) ((checkConfig_ends s).andThen fun _ _ => .of_ok rfl)

theorem freqCount_ends (s : State) : (freqCount s).Ends := by
  rcases freqCount_cases s with ⟨f, -, h⟩ | ⟨e, i, sym, -, h⟩
  · exact .of_ok h
  · exact .of_raised h

theorem huffBuild_ends (s : State) : (huffBuild s).Ends := by
  rcases huffBuild_cases s with ⟨node, root, nodes, k, h⟩ | ⟨e, sym, h⟩
  · exact .of_ok h
  · exact .of_raised h

theorem huffEncode_ends (s : State) : (huffEncode s).Ends := by
  rcases encodeTokens_cases s.tokens 0 0 s with ⟨r, dst, bw, h⟩ | ⟨e, pos, sym, dst, bw, h⟩
  · exact .of_ok h
  · exact .of_raised h

theorem huffDeserialize_ends (s : State) : (huffDeserialize s).Ends := by
  rcases huffDeserialize_cases s with ⟨k, br, node, h⟩ | ⟨sym, br, node, h⟩
  · exact .of_ok h
  · exact .of_raised h

theorem decodeSym_ends (s : State) : (decodeSym s).Ends := by
  rcases decodeSym_cases s with ⟨r, br, h⟩ | ⟨sym, br, h⟩
  · exact .of_ok h
  · exact .of_raised h

/-- An honest TREE_VALID stands over a tree (R35). -/
theorem State.TreeHonest.tree?_ne_none {s : State} (hs : s.TreeHonest) (hv : s.tree.valid = true) : s.tree? ≠ none := by
  intro hn
  have ht := hs hv
  rw [hn] at ht
  cases ht

/-- HUFF_CODES ends where TREE_VALID is honest (R35, R244). -/
theorem huffCodes_ends {s : State} (hs : s.TreeHonest) : (huffCodes s).Ends := by
  rcases huffCodes_cases s with ⟨r, code, h⟩ | ⟨e, pos, sym, h⟩ | ⟨hv, hn, -⟩
  · exact .of_ok h
  · exact .of_raised h
  · exact absurd hn (hs.tree?_ne_none hv)

/-- HUFF_SERIALIZE ends where TREE_VALID is honest (R35, R246). -/
theorem huffSerialize_ends {s : State} (hs : s.TreeHonest) : (huffSerialize s).Ends := by
  rcases huffSerialize_cases s with ⟨k, dst, bw, h⟩ | ⟨e, pos, sym, dst, bw, h⟩ | ⟨hv, hn, -⟩
  · exact .of_ok h
  · exact .of_raised h
  · exact absurd hn (hs.tree?_ne_none hv)

/-- COMPRESS ends: its two walks are over the tree it has just built (R290). -/
theorem compress_ends (n dataType auxWidth : Nat) {s : State} (hp : s.params.legal) :
    (compress n dataType auxWidth s).Ends := by
  have legal {t : State} (h : s.SameButCompress t) : t.params.legal := by rw [h.fields]; exact hp
  unfold compress
  split
  · exact .of_raised rfl
  · refine (checkConfig_ends s).bind (checkConfig_frame s) fun _ s1 h1 => ?_
    refine (lzMatch_ends n s1).bind ((lzMatch_frame n s1).mono fun _ => h1.trans) fun _ s2 h2 => ?_
    refine (freqCount_ends s2).bind ((freqCount_frame s2).mono fun _ => h2.trans) fun _ s3 h3 => ?_
    refine (huffBuild_ends s3).bind (huffBuild_treeHonest (legal h3)) fun tree s4 h4 => ?_
    refine (huffCodes_ends h4.2).bind (huffCodes_sameButCode s4) ?_
    rintro _ _ ⟨code, rfl⟩
    refine (bwInit_ends 9 _).bind (bwInit_sameButBw 9 _) ?_
    rintro _ _ ⟨bw, rfl⟩
    refine Res.Ends.andThen (huffSerialize_ends ?_) fun _ s5 => ?_
    · exact h4.2.congr rfl (fun _ => rfl) rfl
    · exact (huffEncode_ends s5).andThen fun _ s6 => (flush_ends s6).andThen fun _ _ => .of_ok rfl

theorem decompress_ends (m : Nat) (s : State) : (decompress m s).Ends :=
  .ite (.of_raised rfl) <| .ite (.of_raised rfl) <| .ite (.of_raised rfl) <|
    ((brInit_ends 9 m _).andThen fun _ u => huffDeserialize_ends u).atOutLen.andThen fun _ _ => .of_ok rfl

/-! ## Commands -/

/-- Every command but DECOMPRESS is one rule with its done or raise, and the rule ends where TREE_VALID is honest (R142 to
R146). -/
theorem exec_command_finishes {i : Instr} (hi : i.isCommand = true) (hd : i ≠ .decompress) (s : State) :
    ∃ r : Res Results, exec i s = r.finish ∧ (s.params.legal → s.TreeHonest → r.Ends) := by
  cases i with
  | nop => exact ⟨_, rfl, fun _ _ => .of_ok rfl⟩
  | bwInit => exact ⟨_, rfl, fun _ _ => (bwInit_ends _ s).results _⟩
  | bwBits => exact ⟨_, rfl, fun _ _ => .ite (.of_raised rfl) ((writeBits_ends _ _ s).results _)⟩
  | bwFlush => exact ⟨_, rfl, fun _ _ => (flush_ends s).results _⟩
  | brInit => exact ⟨_, rfl, fun _ _ => (brInit_ends _ _ s).results _⟩
  | brBits => exact ⟨_, rfl, fun _ _ => .ite (.of_raised rfl) ((readBits_ends _ s).results _)⟩
  | lenEnc => exact ⟨_, rfl, fun _ _ => .ite (.of_raised rfl) (.of_ok rfl)⟩
  | distEnc => exact ⟨_, rfl, fun _ _ => .ite (.of_raised rfl) (.ite (.of_raised rfl) (.of_ok rfl))⟩
  | lenDec =>
    refine ⟨_, rfl, fun _ _ => ?_⟩
    split
    · exact .of_raised rfl
    · exact .of_ok rfl
  | distDec =>
    refine ⟨_, rfl, fun _ _ => ?_⟩
    split
    · exact .of_raised rfl
    · exact .of_ok rfl
  | lzMatch => exact ⟨_, rfl, fun _ _ => (lzMatch_ends _ s).results _⟩
  | freqCount => exact ⟨_, rfl, fun _ _ => (freqCount_ends s).results _⟩
  | huffBuild =>
    rw [exec, execHuffBuild]
    exact ⟨_, rfl, fun _ _ => (huffBuild_ends s).results _⟩
  | huffCodes => exact ⟨_, rfl, fun _ hs => (huffCodes_ends hs).results _⟩
  | huffSerialize => exact ⟨_, rfl, fun _ hs => (huffSerialize_ends hs).results _⟩
  | huffEncode => exact ⟨_, rfl, fun _ _ => (huffEncode_ends s).results _⟩
  | huffDeserialize => exact ⟨_, rfl, fun _ _ => (huffDeserialize_ends s).results _⟩
  | huffDecodeSym => exact ⟨_, rfl, fun _ _ => .ite (.of_raised rfl) ((decodeSym_ends s).results _)⟩
  | compress => exact ⟨_, rfl, fun hp _ => (compress_ends _ _ _ hp).results _⟩
  | decompress => exact absurd rfl hd
  | _ => cases hi

/-- DECOMPRESS raises, or enters its loop (R294, R295). -/
theorem exec_decompress_cases {s t : State} (h : exec .decompress s = .next t) : t.Ended ∨ t.phase = .decoding := by
  have hgives : (decompress s.arg0 s).Gives (fun _ t => t.phase = .decoding) fun _ => True :=
    .ite (fun _ => .of_raised trivial) fun _ => .ite (fun _ => .of_raised trivial) fun _ =>
      .ite (fun _ => .of_raised trivial) fun _ =>
        (Res.all_true _).gives.bind fun _ _ _ => .of_ok rfl
  exact hgives.goOn (R := fun t => t.Ended ∨ t.phase = .decoding) h (fun _ hu => .inr hu)
    fun u e pos sym _ => .inl (.of_raise u e pos sym)

/-- A command ends, or is a DECOMPRESS that enters its loop (R143, R294, R321). -/
theorem exec_command_cases {i : Instr} {s t : State} (hi : i.isCommand = true) (h : exec i s = .next t) :
    t.Ended ∨ t.phase = .decoding := by
  by_cases hd : i = .decompress
  · subst hd; exact exec_decompress_cases h
  · obtain ⟨r, hr, -⟩ := exec_command_finishes hi hd s
    exact .inl (Res.finish_ended (hr ▸ h))

/-- No command faults or is refused where TREE_VALID is honest (R146; log 10). -/
theorem exec_command_answers {i : Instr} {s : State} (hi : i.isCommand = true) (hp : s.params.legal) (hs : s.TreeHonest) :
    ∃ t, exec i s = .next t := by
  by_cases hd : i = .decompress
  · subst hd; exact (decompress_ends s.arg0 s).goOn
  · obtain ⟨r, hr, hends⟩ := exec_command_finishes hi hd s
    rw [hr]
    exact (hends hp hs).finish

end Sys2Proof.Machine
end

section
/-! What a symbol does: it ends DECOMPRESS, or goes on in one of three ways (R295 to R299). -/

namespace Sys2Proof.Machine

/-- What a symbol of the decode loop does to `s`: it ends DECOMPRESS, or goes on in one of three ways (R295 to R299). -/
inductive State.SymbolEffect (s : State) : State → Prop
  | ended {t : State} (h : t.Ended) : s.SymbolEffect t
  | literal (v : Byte) (hwait : s.dec.pendingLen = none) (hmore : s.outLen.toNat ≠ s.dec.len) :
      s.SymbolEffect (s.appendByte v)
  | length (br : BitReader) (len : Nat) (hwait : s.dec.pendingLen = none) :
      s.SymbolEffect { s with br := br, dec := { s.dec with pendingLen := some len } }
  | copy (br : BitReader) (dist len : Nat) (hwait : s.dec.pendingLen = some len)
      (hfit : s.outLen.toNat + len ≤ s.dec.len) :
      s.SymbolEffect { copyBytes dist len { s with br := br } with dec := { s.dec with pendingLen := none } }

/-- The instruction answers a next state, with an effect of these. -/
def State.RunsSymbol (s : State) (o : Host.Outcome State Fault Refusal) : Prop := ∃ t, o = .next t ∧ s.SymbolEffect t

theorem State.RunsSymbol.raise {s u : State} {e : EngineError} {pos sym : Nat} : s.RunsSymbol (.next (u.raise e pos sym)) :=
  ⟨_, rfl, .ended (.of_raise u e pos sym)⟩

theorem asPrimary_runs {sym : Nat} {s : State} {own : Host.Outcome State Fault Refusal}
    (h : s.dec.pendingLen = none → s.RunsSymbol own) : s.RunsSymbol (asPrimary sym s own) := by
  unfold asPrimary
  split
  · exact .raise
  · exact h ‹_›

theorem execLit_runs (v : Byte) (s : State) : s.RunsSymbol (execLit v s) := by
  refine asPrimary_runs fun hwait => ?_
  split
  · exact .raise
  · exact ⟨_, rfl, .literal v hwait ‹_›⟩

theorem execEos_runs (s : State) : s.RunsSymbol (execEos s) := by
  refine asPrimary_runs fun _ => ?_
  split
  · exact .raise
  · exact ⟨_, rfl, .ended (.of_complete s _)⟩

theorem execLength_runs (sym : Nat) (s : State) : s.RunsSymbol (execLength sym s) := by
  refine asPrimary_runs fun hwait => ?_
  split
  · exact .raise
  · rename_i lb le _
    rcases readBits_cases le s with ⟨x, br, hr⟩ | hr
    · rw [hr]; exact ⟨_, rfl, .length br (lb + x) hwait⟩
    · rw [hr]; exact .raise

theorem execDistance_runs (sym : Nat) (s : State) : s.RunsSymbol (execDistance sym s) := by
  unfold execDistance
  split
  · exact .raise
  · rename_i len hwait
    split
    · exact .raise
    · rename_i db de _
      rcases readBits_cases de s with ⟨x, br, hr⟩ | hr
      · rw [hr, Res.raiseAs_ok, Res.bind_ok]
        unfold copyBack
        simp only
        split
        · exact .raise
        · split
          · exact .raise
          · rename_i hfit
            exact ⟨_, rfl, .copy br (db + x) len hwait (Nat.le_of_not_lt hfit)⟩
      · rw [hr]; exact .raise

/-- Every instruction that is no command is a symbol with one of these effects. -/
theorem exec_symbol_runs {i : Instr} (hi : i.isCommand = false) (s : State) : s.RunsSymbol (exec i s) := by
  rcases decodeSymbol_eq_ok ((decodeSymbol_eq_ok_iff _ i).2 ⟨hi, rfl⟩) with ⟨v, rfl⟩ | rfl | ⟨k, hk⟩ | ⟨k, hk⟩
  · exact execLit_runs v s
  · exact execEos_runs s
  · rw [exec_of_mem_lengthSymbolTable s _ hk]; exact execLength_runs k s
  · rw [exec_of_mem_distanceSymbolTable s _ hk]; exact execDistance_runs k s

theorem runSymbol_runs (sym : Nat) (s : State) : s.RunsSymbol (runSymbol sym s) := by
  unfold runSymbol
  split
  · rename_i i hi
    exact exec_symbol_runs ((decodeSymbol_eq_ok_iff sym i).1 hi).1 s
  · exact asPrimary_runs fun _ => .raise

/-- A symbol ends DECOMPRESS, or leaves the phase as it is. -/
theorem State.SymbolEffect.ended_or_phase {s t : State} (h : s.SymbolEffect t) : t.Ended ∨ t.phase = s.phase := by
  cases h with
  | ended h => exact .inl h
  | literal v => exact .inr rfl
  | length br len => exact .inr rfl
  | copy br dist len =>
    obtain ⟨dst, outLen, hc⟩ := copyBytes_frame dist len { s with br := br }
    exact .inr (by rw [hc])

/-- Settles O8: an instruction that leaves the Engine IDLE has ended by done or raise. -/
theorem commandEndsInDoneOrError : Obligations.CommandEndsInDoneOrError := by
  intro i s t hbusy h hidle
  have hphase : t.phase = .idle := (State.busy_eq_false_iff t).1 hidle
  refine State.Ended.outcome ?_
  by_cases hi : i.isCommand = true
  · exact (exec_command_cases hi h).resolve_right (by simp [hphase])
  · obtain ⟨u, hu, heff⟩ := exec_symbol_runs (Bool.eq_false_iff.2 hi) s
    cases hu.symm.trans h
    exact heff.ended_or_phase.resolve_right fun hp => (State.busy_eq_true_iff s).1 hbusy (hp.symm.trans hphase)

end Sys2Proof.Machine
end

section
/-! A running command ends within a bound that each step of the Engine lowers (R146, R301). -/

namespace Sys2Proof.Machine

/-! ## How many steps are left -/

/-- A bound on the Engine's steps before BUSY = 0. In the decode loop each byte still due takes at most one step, EOS or a failing
symbol one more, and so does a length that does not wait yet (R295 to R299; log 4, 7). -/
def State.stepsLeft (s : State) : Nat :=
  match s.phase with
  | .idle => 0
  | .latched => s.params.dstSize + 3
  | .decoding => s.dec.len - s.outLen.toNat + if s.dec.pendingLen = none then 2 else 1

theorem State.stepsLeft_of_idle {s : State} (h : s.phase = .idle) : s.stepsLeft = 0 := by simp only [State.stepsLeft, h]

theorem State.stepsLeft_of_latched {s : State} (h : s.phase = .latched) : s.stepsLeft = s.params.dstSize + 3 := by
  simp only [State.stepsLeft, h]

theorem State.stepsLeft_of_decoding {s : State} (h : s.phase = .decoding) :
    s.stepsLeft = s.dec.len - s.outLen.toNat + if s.dec.pendingLen = none then 2 else 1 := by
  simp only [State.stepsLeft, h]

/-- The decode loop takes at most one step for each byte of DST and two more (R301). -/
theorem State.DecodeInv.stepsLeft_le {s : State} (hs : s.DecodeInv) (hp : s.phase = .decoding) :
    s.stepsLeft ≤ s.params.dstSize + 2 := by
  obtain ⟨-, hlen, -⟩ := hs hp
  rw [State.stepsLeft_of_decoding hp]
  split <;> omega

theorem State.Inv.stepsLeft_le {s : State} (hs : s.Inv) : s.stepsLeft ≤ s.params.dstSize + 3 := by
  obtain ⟨-, -, hdec, -⟩ := (State.inv_iff s).1 hs
  cases hp : s.phase with
  | idle => rw [State.stepsLeft_of_idle hp]; exact Nat.zero_le _
  | latched => exact (State.stepsLeft_of_latched hp).le
  | decoding => exact (hdec.stepsLeft_le hp).trans (Nat.le_succ _)

/-- The copy of `len` bytes moves OUT_LEN on by `len` (R298). -/
theorem copyBytes_outLen (dist len : Nat) (s : State) (h : s.outLen.toNat + len < 2 ^ 64) :
    (copyBytes dist len s).outLen.toNat = s.outLen.toNat + len := by
  induction len generalizing s with
  | zero => rfl
  | succ len ih =>
    have hstep (v : Byte) : (s.appendByte v).outLen.toNat = s.outLen.toNat + 1 := Word.toNat_ofNat_of_lt (by omega)
    rw [copyBytes, ih _ (by rw [hstep]; omega), hstep]
    omega

/-- Every symbol of the decode loop brings its end nearer: a literal appends a byte, a length waits for its distance, and a
copy appends at least 3 bytes (R296, R298, R301). -/
theorem State.SymbolEffect.stepsLeft_lt {s t : State} (h : s.SymbolEffect t) (hd : s.params.dstSize ≤ 2 ^ 40)
    (hs : s.DecodeInv) (hp : s.phase = .decoding) : t.stepsLeft < s.stepsLeft := by
  obtain ⟨hout, hlen, hwaits⟩ := hs hp
  rw [State.stepsLeft_of_decoding hp]
  cases h with
  | ended h => rw [State.stepsLeft_of_idle h.phase]; split <;> omega
  | literal v hwait hmore =>
    have hout' : (s.appendByte v).outLen.toNat = s.outLen.toNat + 1 := Word.toNat_ofNat_of_lt (by omega)
    rw [State.stepsLeft_of_decoding (s := s.appendByte v) hp, State.appendByte_dec, hwait, hout']
    simp only [if_true]
    omega
  | length br len hwait =>
    rw [State.stepsLeft_of_decoding (by exact hp), hwait]
    simp
  | copy br dist len hwait hfit =>
    obtain ⟨dst, outLen, hc⟩ := copyBytes_frame dist len { s with br := br }
    have hout' : outLen.toNat = s.outLen.toNat + len := by
      have := copyBytes_outLen dist len { s with br := br } (show s.outLen.toNat + len < 2 ^ 64 by omega)
      rwa [hc] at this
    have hlen3 : 3 ≤ len := by
      rw [hwait] at hwaits
      exact (of_decide_eq_true hwaits).1
    rw [hc, State.stepsLeft_of_decoding (by exact hp), hwait]
    simp only [hout', if_true, reduceCtorEq, if_false]
    omega

/-! ## The Engine -/

/-- The Engine takes no turn of the Host's (R4; log 5). -/
theorem engineStep_keeps_pending {s t : State} (h : engineStep s = .next t) : t.pending = s.pending := by
  have hexec {i : Instr} {u v : State} (h : exec i u = .next v) : v.pending = u.pending := by
    obtain ⟨-, -, -, -, -, -, -, -, hpending, -⟩ := execKeepsHostState i u v h
    exact hpending
  unfold engineStep at h
  split at h
  · cases h; rfl
  · unfold runCommand at h
    split at h
    · exact hexec h
    · cases h; rfl
  · have hread := (decodeSym_sameButReader s).atOutLen
    unfold decodePass at h
    split at h
    · rename_i r s1 hr
      obtain ⟨br, rfl⟩ := hread.1 _ _ hr
      unfold runSymbol at h
      split at h
      · exact (hexec h).trans rfl
      · exact asPrimary_next (P := fun t => t.pending = s.pending) h (fun _ _ _ => rfl) fun h => by cases h; rfl
    · rename_i e pos sym s1 hr
      obtain ⟨br, rfl⟩ := hread.2 _ _ _ _ hr
      cases h; rfl
    · cases h

/-- A pass of the decode loop answers a next state, nearer to the end (R146, R301). -/
theorem decodePass_progress {s : State} (hs : s.Inv) (hp : s.phase = .decoding) :
    ∃ t, decodePass s = .next t ∧ t.stepsLeft < s.stepsLeft := by
  obtain ⟨hu, -, hdec, -⟩ := (State.inv_iff s).1 hs
  obtain ⟨-, -, -, hd, -⟩ := hu.legal
  unfold decodePass
  rcases decodeSym_cases s with ⟨r, br, h⟩ | ⟨sym, br, h⟩
  · obtain ⟨t, ht, heff⟩ := runSymbol_runs r.1 { s with br := br }
    rw [h]
    exact ⟨t, ht, heff.stepsLeft_lt hd hdec hp⟩
  · rw [h]
    refine ⟨_, rfl, ?_⟩
    have heff : s.SymbolEffect (State.raise { s with br := br } .malformedTree s.outLen.toNat sym) :=
      .ended (.of_raise _ _ _ _)
    exact heff.stepsLeft_lt hd hdec hp

/-- The latched command answers a next state: it has ended, or stands at the start of the decode loop (R146). -/
theorem runCommand_progress {s : State} (hs : s.Inv) (ht : s.TreeInv) (hp : s.phase = .latched) :
    ∃ t, runCommand s = .next t ∧ t.stepsLeft < s.stepsLeft := by
  obtain ⟨hu, -, -, -⟩ := (State.inv_iff s).1 hs
  rw [State.stepsLeft_of_latched hp]
  unfold runCommand
  split
  · rename_i i hi
    have hc := ((decodeCommand_eq_ok_iff _ i).1 hi).1
    obtain ⟨t, h⟩ := exec_command_answers hc hu.legal ht.1
    refine ⟨t, h, ?_⟩
    rcases exec_command_cases hc h with hend | hloop
    · rw [State.stepsLeft_of_idle hend.phase]; omega
    · have hinv : t.Inv := engineStep_inv hs (by simp only [engineStep, hp, runCommand, hi, h])
      obtain ⟨-, -, hdec, -⟩ := (State.inv_iff t).1 hinv
      obtain ⟨-, -, -, -, -, -, -, hparams, -⟩ := execKeepsHostState i s t h
      have hle := hdec.stepsLeft_le hloop
      rw [hparams] at hle
      omega
  · exact ⟨_, rfl, by rw [State.stepsLeft_of_idle rfl]; omega⟩

/-- While BUSY every turn of the Engine answers a next state, nearer to the end (R146). -/
theorem engineStep_progress {s : State} (hs : s.Inv) (ht : s.TreeInv) (hb : s.busy = true) :
    ∃ t, engineStep s = .next t ∧ t.stepsLeft < s.stepsLeft := by
  unfold engineStep
  cases hp : s.phase with
  | idle => exact absurd hp ((State.busy_eq_true_iff s).1 hb)
  | latched => exact runCommand_progress hs ht hp
  | decoding => exact decodePass_progress hs hp

theorem core_run_succ {s t : State} (h : step s = .next t) (k : Nat) :
    Sys2Proof.core.run (k + 1) s = Sys2Proof.core.run k t := by
  have h' : Sys2Proof.core.step s = .next t := h
  simp only [Host.Core.run, h']

/-- With no turn pending the block is IDLE within as many steps as `stepsLeft` bounds (R146; log 6). -/
theorem run_ends {n : Nat} {s : State} (hs : s.Inv) (ht : s.TreeInv) (hp : s.pending = []) (hn : s.stepsLeft ≤ n) :
    ∃ k t, k ≤ n ∧ Sys2Proof.core.run k s = .next t ∧ t.busy = false := by
  induction n generalizing s with
  | zero =>
    refine ⟨0, s, le_rfl, rfl, Bool.eq_false_iff.2 fun hb => ?_⟩
    obtain ⟨t, -, hlt⟩ := engineStep_progress hs ht hb
    omega
  | succ n ih =>
    cases hb : s.busy with
    | false => exact ⟨0, s, Nat.zero_le _, rfl, hb⟩
    | true =>
      obtain ⟨t, h, hlt⟩ := engineStep_progress hs ht hb
      have hstep : step s = .next t := (step_of_nil s hp).trans h
      obtain ⟨k, u, hk, hrun, hu⟩ := ih (stepKeepsInvariant s t hs hstep) (stepKeepsTreeInvariant s t hs ht hstep)
        ((engineStep_keeps_pending h).trans hp) (by omega)
      exact ⟨k + 1, u, by omega, (core_run_succ hstep k).trans hrun, hu⟩

/-- Settles O56: stepsLeft is at most DST_SIZE + 3 and falls with every step. -/
theorem everyCommandEnds : Obligations.EveryCommandEnds := by
  intro s hs ht _ hp
  exact run_ends hs ht hp (hs.stepsLeft_le.trans (Nat.le_succ _))

end Sys2Proof.Machine
end

section
/-! The writer's commands BW_INIT, BW_BITS and BW_FLUSH, case by case (R161 to R165). -/

namespace Sys2Proof.Machine

theorem Quad.setResults_r0 (q : Quad) (v : Nat) :
    q.setResults { Results.none with r0 := some v } = { q with r0 := Word.ofNat v } := rfl

theorem Word.ofNat_add_toNat (w : Word) (n : Nat) : Word.ofNat (w.toNat + n) = w + Word.ofNat n := by
  rw [Word.ofNat, BitVec.ofNat_add, BitVec.ofNat_toNat, BitVec.setWidth_eq]

/-! ## The primitives -/

theorem bwInit_of_gt {o : Nat} {s : State} (h : s.params.dstSize < o) : bwInit o s = .raised .badArgument 0 o s :=
  if_pos h

/-- Byte `i` of those an accumulator gives, most significant first (R75, R162). -/
theorem topBytes_getD (a c nb : Nat) (d : Byte) {i : Nat} (h : i < nb) :
    (topBytes a c nb).getD i d = BitVec.ofNat 8 (a / 2 ^ (c - 8 * (i + 1))) := by
  simp [topBytes, List.getD_eq_getElem?_getD, h]

/-- With no bits pending flush writes nothing (R164). -/
theorem flush_of_empty {s : State} (h : s.bw.cnt.toNat = 0) :
    flush s = .ok () { s with bw := { s.bw with acc := 0, cnt := 0 } } := by
  simp [flush, h]

/-- With bits pending flush writes them to the high bits of one byte (R164). -/
theorem flush_of_pending {s : State} (h : 0 < s.bw.cnt.toNat) (hfit : s.bw.pos.toNat + 1 ≤ s.params.dstSize) :
    flush s = .ok () { s.putDst s.bw.pos.toNat [BitVec.ofNat 8 (s.bw.acc.toNat * 2 ^ (8 - s.bw.cnt.toNat))] with
      bw := { s.bw with pos := Word.ofNat (s.bw.pos.toNat + 1), acc := 0, cnt := 0 } } := by
  rw [flush, if_pos h, if_neg (Nat.not_lt.2 hfit)]

/-- With bits pending and no byte left flush raises (R164). -/
theorem flush_of_full {s : State} (h : 0 < s.bw.cnt.toNat) (hfull : s.params.dstSize < s.bw.pos.toNat + 1) :
    flush s = .raised .capacityExceeded s.bw.pos.toNat 0 s := by
  rw [flush, if_pos h, if_pos hfull]

/-! ## The commands -/

theorem exec_bwInit (s : State) :
    exec .bwInit s = ((bwInit s.arg0 s).bind fun _ t => .ok Results.none t).finish := rfl

theorem exec_bwFlush (s : State) : exec .bwFlush s =
    ((flush s).bind fun _ t => .ok { Results.none with r0 := some t.bw.pos.toNat } t).finish := rfl

section
variable {s t : State} {e : EngineError} {pos sym : Nat}

theorem exec_bwInit_of_ok (h : bwInit s.arg0 s = .ok () t) : exec .bwInit s = .next (t.complete Results.none) := by
  rw [exec_bwInit, h, Res.bind_ok, Res.finish_ok]

theorem exec_bwInit_of_raised (h : bwInit s.arg0 s = .raised e pos sym t) :
    exec .bwInit s = .next (t.raise e pos sym) := by
  rw [exec_bwInit, h, Res.bind_raised, Res.finish_raised]

/-- BW_BITS with n up to NMAX is writeBits (R163). -/
theorem exec_bwBits_of_le (hn : s.arg1 ≤ 57) :
    exec .bwBits s = ((writeBits s.arg0 s.arg1 s).bind fun _ t => .ok Results.none t).finish :=
  congrArg Res.finish (if_neg (Nat.not_lt.2 hn))

theorem exec_bwBits_of_gt (hn : 57 < s.arg1) : exec .bwBits s = .next (s.raise .badArgument 0 s.arg1) :=
  congrArg Res.finish (if_pos hn)

theorem exec_bwBits_of_ok (hn : s.arg1 ≤ 57) (h : writeBits s.arg0 s.arg1 s = .ok () t) :
    exec .bwBits s = .next (t.complete Results.none) := by
  rw [exec_bwBits_of_le hn, h, Res.bind_ok, Res.finish_ok]

theorem exec_bwBits_of_raised (hn : s.arg1 ≤ 57) (h : writeBits s.arg0 s.arg1 s = .raised e pos sym t) :
    exec .bwBits s = .next (t.raise e pos sym) := by
  rw [exec_bwBits_of_le hn, h, Res.bind_raised, Res.finish_raised]

/-- BW_FLUSH answers the writer's position in RES0 (R165). -/
theorem exec_bwFlush_of_ok (h : flush s = .ok () t) :
    exec .bwFlush s = .next (t.afterDone { t.res with r0 := t.bw.pos }) := by
  rw [exec_bwFlush, h, Res.bind_ok, Res.finish_ok, State.complete_eq_afterDone, Quad.setResults_r0, Word.ofNat_toNat]

theorem exec_bwFlush_of_raised (h : flush s = .raised e pos sym t) : exec .bwFlush s = .next (t.raise e pos sym) := by
  rw [exec_bwFlush, h, Res.bind_raised, Res.finish_raised]

end

/-- Settles O19: the two cases of bwInit, and ARG0 is already a word. -/
theorem bwInitCompletes : Obligations.BwInitCompletes := by
  intro s
  refine ⟨fun h => ?_, fun h => exec_bwInit_of_raised (bwInit_of_gt h)⟩
  have hinit := bwInit_of_le _ s h
  rw [Word.ofNat_toNat] at hinit
  exact exec_bwInit_of_ok hinit

/-- Settles O20: the two cases of writeBits, the bytes of the accumulator read back one by one, and n above NMAX. -/
theorem bwBitsAppends : Obligations.BwBitsAppends := by
  intro s v n pos c nb a
  refine ⟨fun hn hfit => ?_, fun hn hfull => exec_bwBits_of_raised hn (writeBits_of_full v n s hfull), exec_bwBits_of_gt⟩
  obtain ⟨dst, bw, h⟩ := writeBits_of_fits v n s hfit
  obtain ⟨-, ht⟩ := writeBits_ok v n s _ h
  have hc : c - 8 * nb = (s.bw.cnt.toNat + n) % 8 := Nat.sub_eq_of_eq_add (Nat.mod_add_div _ 8).symm
  refine ⟨s.dst.put pos (topBytes a c nb), ?_, fun j => ?_⟩
  · rw [hc, ← Word.ofNat_add_toNat]
    exact exec_bwBits_of_ok hn (h.trans (congrArg (Res.ok ()) ht))
  · refine (s.dstAt_putDst pos (topBytes a c nb) j).trans ?_
    rw [topBytes_length]
    exact ite_congr rfl (fun hj => topBytes_getD a c nb _ (by omega)) fun _ => rfl

/-- Settles O21: the three cases of flush. -/
theorem bwFlushCompletes : Obligations.BwFlushCompletes := by
  intro s pos cnt
  refine ⟨fun h => exec_bwFlush_of_ok (flush_of_empty h), fun h hfit _ => ?_,
    fun h hfull => exec_bwFlush_of_raised (flush_of_full h hfull)⟩
  exact ⟨_, exec_bwFlush_of_ok (flush_of_pending h hfit), fun j => getD_get?_put_singleton s.dst pos _ j _⟩

end Sys2Proof.Machine
end

section
/-! The reader: BR_INIT, BR_BITS, and where a sequence of readBits calls leaves BR_* (R167 to R171). -/

namespace Sys2Proof.Machine

/-! ## BR_INIT -/

theorem brInit_of_bad {a e : Nat} {s : State} (h : e < a ∨ s.params.srcSize < e) :
    brInit a e s = .raised .badArgument 0 a s := if_pos h

theorem exec_brInit (s : State) :
    exec .brInit s = ((brInit s.arg0 s.arg1 s).bind fun _ t => .ok Results.none t).finish := rfl

theorem exec_brInit_of_ok {s t : State} (h : brInit s.arg0 s.arg1 s = .ok () t) :
    exec .brInit s = .next (t.complete Results.none) := by
  rw [exec_brInit, h, Res.bind_ok, Res.finish_ok]

theorem exec_brInit_of_raised {s t : State} {e : EngineError} {pos sym : Nat}
    (h : brInit s.arg0 s.arg1 s = .raised e pos sym t) : exec .brInit s = .next (t.raise e pos sym) := by
  rw [exec_brInit, h, Res.bind_raised, Res.finish_raised]

/-- Settles O22: the two cases of brInit, and the operands are already words. -/
theorem brInitCompletes : Obligations.BrInitCompletes := by
  intro s a e
  refine ⟨fun h he => ?_, fun h => exec_brInit_of_raised (brInit_of_bad h)⟩
  have hinit := brInit_of_le a.toNat e.toNat s h he
  rw [Word.ofNat_toNat, Word.ofNat_toNat] at hinit
  exact exec_brInit_of_ok hinit

/-- BR_INIT on a range inside SRC: nothing is cached, and the range is to be read (R167). -/
theorem brInit_reader {a e : Nat} {s : State} (hp : s.params.legal) (h : a ≤ e) (he : e ≤ s.params.srcSize) :
    ∃ t, brInit a e s = .ok () t ∧ t.params = s.params ∧ t.readerInv ∧ t.br.pos.toNat = a ∧ t.br.cnt.toNat = 0 ∧
      t.readerBits = s.srcBits a e := by
  obtain ⟨-, hsrc, -⟩ := hp
  have hpos : (Word.ofNat a).toNat = a := Word.toNat_ofNat_of_lt (by omega)
  have hstop : (Word.ofNat e).toNat = e := Word.toNat_ofNat_of_lt (by omega)
  refine ⟨_, brInit_of_le a e s h he, rfl, ⟨Nat.zero_le 7, Nat.one_pos, ?_, hstop.trans_le he⟩, hpos, rfl, ?_⟩
  · exact hpos.trans_le (h.trans_eq hstop.symm)
  · exact congrArg₂ s.srcBits hpos hstop

/-! ## Bits consumed -/

/-- From `s` to `t` the reader has taken `n` of its bits: only BR_* differs, and the other bits are left (R168). -/
structure State.Consumed (s t : State) (n : Nat) : Prop where
  frame : ∃ br, t = { s with br := br }
  enough : n ≤ s.readerBits.length
  inv : t.readerInv
  stop : t.br.stop = s.br.stop
  bits : t.readerBits = s.readerBits.drop n

theorem State.Consumed.refl {s : State} (h : s.readerInv) : s.Consumed s 0 where
  frame := ⟨s.br, rfl⟩
  enough := Nat.zero_le _
  inv := h
  stop := rfl
  bits := rfl

section
variable {s t u : State} {n m : Nat}

theorem State.Consumed.params (h : s.Consumed t n) : t.params = s.params := by
  obtain ⟨_, rfl⟩ := h.frame
  rfl

theorem State.Consumed.trans (h : s.Consumed t n) (h' : t.Consumed u m) : s.Consumed u (n + m) where
  frame := by
    obtain ⟨_, rfl⟩ := h.frame
    obtain ⟨br, rfl⟩ := h'.frame
    exact ⟨br, rfl⟩
  enough := by
    have hn := h.enough
    have hm := h'.enough
    rw [h.bits, List.length_drop] at hm
    omega
  inv := h'.inv
  stop := h'.stop.trans h.stop
  bits := by rw [h'.bits, h.bits, List.drop_drop]

/-- The bits taken fix BR_POS and BR_CNT: no byte is loaded before it is needed (R168, R171). -/
theorem State.Consumed.position (hs : s.readerInv) (h : s.Consumed t n) :
    t.br.pos.toNat = s.br.pos.toNat + (n - s.br.cnt.toNat + 7) / 8 ∧
      t.br.cnt.toNat = s.br.cnt.toNat + 8 * ((n - s.br.cnt.toNat + 7) / 8) - n := by
  have hn := h.enough
  have hleft := congrArg List.length h.bits
  rw [List.length_drop, State.readerBits_length, State.readerBits_length, State.bitsLeft, State.bitsLeft, h.stop] at hleft
  rw [State.readerBits_length, State.bitsLeft] at hn
  obtain ⟨hcnt, -, hpos, -⟩ := hs
  obtain ⟨hcnt', -, hpos', -⟩ := h.inv
  rw [h.stop] at hpos'
  omega

/-! ## readBits -/

/-- With enough bits left readBits answers the first n as a number (R168). -/
theorem readBits_consumes (hp : s.params.legal) (hs : s.readerInv) (hn : n ≤ s.readerBits.length) :
    ∃ t, readBits n s = .ok (valBits (s.readerBits.take n)) t ∧ s.Consumed t n := by
  obtain ⟨-, hsrc, -⟩ := hp
  obtain ⟨br, hread, hstop, hinv, hbits⟩ := readBits_spec n s (by omega) hs hn
  exact ⟨_, hread, ⟨br, rfl⟩, hn, hinv, hstop, hbits⟩

theorem readBits_consumed (hp : s.params.legal) (hs : s.readerInv) {v : Nat} (h : readBits n s = .ok v t) :
    s.Consumed t n := by
  rcases le_or_gt n s.readerBits.length with hn | hn
  · obtain ⟨u, hu, hc⟩ := readBits_consumes hp hs hn
    cases hu.symm.trans h
    exact hc
  · cases (readBits_of_short n s hn).symm.trans h

/-- A sequence of readBits calls takes the sum of its counts (R171). -/
theorem readAll_consumed {ns vs : List Nat} (hp : s.params.legal) (hs : s.readerInv) (h : readAll ns s = .ok vs t) :
    s.Consumed t ns.sum := by
  induction ns generalizing s vs with
  | nil => cases h; exact .refl hs
  | cons n ns ih =>
    obtain ⟨v, u, hu, hrest⟩ := (Res.bind_eq_ok_iff _ _ _ _).1 h
    obtain ⟨vs', t', ht', hend⟩ := (Res.bind_eq_ok_iff _ _ _ _).1 hrest
    cases hend
    have hc := readBits_consumed hp hs hu
    rw [List.sum_cons]
    exact hc.trans (ih (hc.params ▸ hp) hc.inv ht')

/-! ## BR_BITS -/

/-- BR_BITS with n up to NMAX is readBits (R169). -/
theorem exec_brBits_of_le (hn : s.arg0 ≤ 57) : exec .brBits s =
    ((readBits s.arg0 s).bind fun v t => .ok { Results.none with r0 := some v } t).finish :=
  congrArg Res.finish (if_neg (Nat.not_lt.2 hn))

theorem exec_brBits_of_gt (hn : 57 < s.arg0) : exec .brBits s = .next (s.raise .badArgument 0 s.arg0) :=
  congrArg Res.finish (if_pos hn)

theorem exec_brBits_of_ok {v : Nat} (hn : s.arg0 ≤ 57) (h : readBits s.arg0 s = .ok v t) :
    exec .brBits s = .next (t.complete { Results.none with r0 := some v }) := by
  rw [exec_brBits_of_le hn, h, Res.bind_ok, Res.finish_ok]

theorem exec_brBits_of_raised {e : EngineError} {pos sym : Nat} (hn : s.arg0 ≤ 57)
    (h : readBits s.arg0 s = .raised e pos sym t) : exec .brBits s = .next (t.raise e pos sym) := by
  rw [exec_brBits_of_le hn, h, Res.bind_raised, Res.finish_raised]

end

/-- Settles O23: the bits taken fix the reader's registers, and done leaves them. -/
theorem brBitsTakesBits : Obligations.BrBitsTakesBits := by
  intro s hp hs n
  refine ⟨fun hn hleft => ?_, fun hn hshort => exec_brBits_of_raised hn (readBits_of_short n s hshort), exec_brBits_of_gt⟩
  obtain ⟨t, hread, hc⟩ := readBits_consumes hp hs hleft
  obtain ⟨hpos, hcnt⟩ := hc.position hs
  refine ⟨_, exec_brBits_of_ok hn hread, hc.bits, hc.inv, hc.stop, hpos, hcnt, ?_⟩
  obtain ⟨_, rfl⟩ := hc.frame
  rfl

/-- Settles O26: BR_INIT leaves no bit cached, and the reads take their bits from there. -/
theorem readerPositionLaw : Obligations.ReaderPositionLaw := by
  intro s t a e ns vs hp _ h
  obtain ⟨_, u, hinit, hreads⟩ := (Res.bind_eq_ok_iff _ _ _ _).1 h
  have hrange : a ≤ e ∧ e ≤ s.params.srcSize := by
    by_contra hbad
    cases (brInit_of_bad (by omega)).symm.trans hinit
  obtain ⟨u', hu', hparams, hinv, hpos, hcnt, -⟩ := brInit_reader hp hrange.1 hrange.2
  cases hu'.symm.trans hinit
  have hread := (readAll_consumed (hparams ▸ hp) hinv hreads).position hinv
  rwa [hpos, hcnt, Nat.sub_zero, Nat.zero_add] at hread

end Sys2Proof.Machine
end

section
/-! Streams: what BW_INIT, writes and flush leave in DST, and that reading it gives the values back (R166, R170). -/

namespace Sys2Proof.Machine

/-! ## What flush leaves -/

@[simp] theorem bitsOf_zero_right (n : Nat) : bitsOf n 0 = List.replicate n false := by
  induction n with
  | zero => rfl
  | succ n ih => rw [bitsOf, ih, Nat.zero_div]; rfl

/-- The pending bits, left-aligned in a byte with zeros below (R164). -/
theorem byteBits_leftAligned {cnt : Nat} (acc : Nat) (h : cnt ≤ 8) :
    byteBits (BitVec.ofNat 8 (acc * 2 ^ (8 - cnt))) = bitsOf cnt acc ++ List.replicate (8 - cnt) false := by
  have happend := bitsOf_append cnt (8 - cnt) acc 0
  rwa [Nat.zero_mod, Nat.add_zero, Nat.add_sub_cancel' h, bitsOf_zero_right, ← byteBits_ofNat] at happend

/-- flush rounds the position up to a byte, and fills the stream with zeros to there (R164). -/
theorem flush_spec {s t : State} (hp : s.params.legal) (hs : s.writerInv) (h : flush s = .ok () t) :
    t.bw.pos.toNat = (8 * s.bw.pos.toNat + s.bw.cnt.toNat + 7) / 8 ∧
      ∀ o, o ≤ s.bw.pos.toNat → t.dstBits o t.bw.pos.toNat = s.writerBits o ++
        List.replicate (8 * t.bw.pos.toNat - (8 * s.bw.pos.toNat + s.bw.cnt.toNat)) false := by
  obtain ⟨hcnt, -, -⟩ := hs
  obtain ⟨-, -, -, hdst, -⟩ := hp
  rcases Nat.eq_zero_or_pos s.bw.cnt.toNat with hempty | hpending
  · cases (flush_of_empty hempty).symm.trans h
    refine ⟨by dsimp only; omega, fun o _ => ?_⟩
    have hzeros : 8 * s.bw.pos.toNat - (8 * s.bw.pos.toNat + s.bw.cnt.toNat) = 0 := by omega
    rw [State.writerBits, hempty, bitsOf_zero, List.append_nil, ← hempty, hzeros, List.replicate_zero, List.append_nil]
    rfl
  · have hfit : s.bw.pos.toNat + 1 ≤ s.params.dstSize := by
      by_contra hfull
      cases (flush_of_full hpending (Nat.not_le.1 hfull)).symm.trans h
    cases (flush_of_pending hpending hfit).symm.trans h
    have hpos : (Word.ofNat (s.bw.pos.toNat + 1)).toNat = s.bw.pos.toNat + 1 := Word.toNat_ofNat_of_lt (by omega)
    dsimp only
    rw [hpos]
    refine ⟨by omega, fun o ho => ?_⟩
    have hzeros : 8 * (s.bw.pos.toNat + 1) - (8 * s.bw.pos.toNat + s.bw.cnt.toNat) = 8 - s.bw.cnt.toNat := by omega
    have hbyte := s.dstBits_putDst s.bw.pos.toNat [BitVec.ofNat 8 (s.bw.acc.toNat * 2 ^ (8 - s.bw.cnt.toNat))]
    rw [List.flatMap_singleton, byteBits_leftAligned _ (by omega)] at hbyte
    have hold : (s.putDst s.bw.pos.toNat [BitVec.ofNat 8 (s.bw.acc.toNat * 2 ^ (8 - s.bw.cnt.toNat))]).dstBits o
        s.bw.pos.toNat = s.dstBits o s.bw.pos.toNat :=
      State.dstBits_congr _ _ _ _ fun j _ hj => by rw [State.dstAt_putDst, if_neg (by omega)]
    rw [hzeros, State.writerBits, List.append_assoc, ← hbyte, ← hold]
    exact State.dstBits_append _ o _ _ ho (Nat.le_succ _)

/-! ## A stream written -/

/-- BW_INIT on a position of DST starts a stream with no bits (R161). -/
theorem bwInit_writer {o : Nat} {s : State} (hp : s.params.legal) (h : o ≤ s.params.dstSize) :
    ∃ t, bwInit o s = .ok () t ∧ t.params = s.params ∧ t.writerInv ∧ t.bw.pos.toNat = o ∧ t.bw.cnt.toNat = 0 ∧
      t.writerBits o = [] := by
  obtain ⟨-, -, -, hdst, -⟩ := hp
  have hpos : (Word.ofNat o).toNat = o := Word.toNat_ofNat_of_lt (by omega)
  refine ⟨_, bwInit_of_le o s h, rfl, ⟨Nat.zero_le 7, Nat.one_pos, hpos.trans_le h⟩, hpos, rfl, ?_⟩
  show s.dstBits o (Word.ofNat o).toNat ++ [] = []
  rw [hpos, List.append_nil, State.dstBits, Nat.sub_self]
  rfl

/-- A sequence of writeBits calls that raises nothing appends all its bits (R162). -/
theorem writeAll_wrote_of_ok {ws : List (Nat × Nat)} {s t : State} (hp : s.params.legal) (hs : s.writerInv)
    (h : writeAll ws s = .ok () t) : s.Wrote t (bitsOfWrites ws) := by
  by_cases hfit : s.Fits (totalBits ws)
  · obtain ⟨u, hu, hw⟩ := writeAll_wrote ws hp hs hfit
    cases hu.symm.trans h
    exact hw
  · obtain ⟨u, _, v, n, _, -, -, -, hraise, -⟩ := writeAll_stops ws hp hs hfit
    cases hraise.symm.trans h

/-- Settles O24: the writes append their bits from byte o, and flush fills the last byte with zeros. -/
theorem outputLengthLaw : Obligations.OutputLengthLaw := by
  intro s t o ws hp _ h
  obtain ⟨_, u, hinit, hrest⟩ := (Res.bind_eq_ok_iff _ _ _ _).1 h
  obtain ⟨_, w, hwrite, hflush⟩ := (Res.bind_eq_ok_iff _ _ _ _).1 hrest
  have ho : o ≤ s.params.dstSize := by
    by_contra hbad
    cases (bwInit_of_gt (Nat.not_le.1 hbad)).symm.trans hinit
  obtain ⟨u', hu', hparams, hinv, hpos, hcnt, hstream⟩ := bwInit_writer hp ho
  cases hu'.symm.trans hinit
  have hw := writeAll_wrote_of_ok (hparams ▸ hp) hinv hwrite
  obtain ⟨hend, hbits⟩ := flush_spec (by rw [hw.params, hparams]; exact hp) hw.inv hflush
  have hwpos := hw.bitPos
  rw [hpos, hcnt, bitsOfWrites_length] at hwpos
  have hwcnt := hw.inv.1
  have hlen : t.bw.pos.toNat = o + (totalBits ws + 7) / 8 := by omega
  refine ⟨hlen, ?_⟩
  have hzeros : 8 * t.bw.pos.toNat - (8 * w.bw.pos.toNat + w.bw.cnt.toNat) =
      8 * ((totalBits ws + 7) / 8) - totalBits ws := by omega
  rw [hbits o (by omega), hw.stream o hpos.ge, hstream, List.nil_append, hzeros]

/-! ## A stream read back -/

/-- Reading with the counts of the writes gives back what they wrote, whatever stands behind (R162, R168). -/
theorem readAll_of_writes {ws : List (Nat × Nat)} {s : State} {rest : List Bool} (hp : s.params.legal)
    (hs : s.readerInv) (hbits : s.readerBits = bitsOfWrites ws ++ rest) :
    ∃ t, readAll (ws.map Prod.snd) s = .ok (ws.map fun x => x.1 % 2 ^ x.2) t := by
  induction ws generalizing s with
  | nil => exact ⟨s, rfl⟩
  | cons x ws ih =>
    obtain ⟨v, n⟩ := x
    rw [bitsOfWrites_cons, List.append_assoc] at hbits
    have hn : n ≤ s.readerBits.length := by
      rw [hbits, List.length_append, bitsOf_length]
      exact Nat.le_add_right n _
    obtain ⟨t, ht, hc⟩ := readBits_consumes hp hs hn
    rw [hbits, List.take_left' (bitsOf_length n v), valBits_bitsOf] at ht
    obtain ⟨u, hu⟩ := ih (hc.params ▸ hp) hc.inv (by rw [hc.bits, hbits, List.drop_left' (bitsOf_length n v)])
    exact ⟨u, by rw [List.map_cons, readAll, ht, Res.bind_ok, hu]; rfl⟩

/-- Bytes of DST copied to SRC are the same bits. -/
theorem State.srcBits_eq_dstBits {s t : State} {a o len : Nat} (h : ∀ j, j < len → s.srcAt (a + j) = t.dstAt (o + j)) :
    s.srcBits a (a + len) = t.dstBits o (o + len) := by
  rw [State.srcBits, State.dstBits, Nat.add_sub_cancel_left, Nat.add_sub_cancel_left]
  exact List.flatMap_congr fun j hj => by rw [h j (List.mem_range.1 hj)]

/-- Settles O25: the reader's bits are those O24 finds in DST, and each read takes back the bits of its write. -/
theorem bitStreamRoundTrip : Obligations.BitStreamRoundTrip := by
  intro s t u o a ws hp hpu hn h hfit hcopy
  obtain ⟨hpos, hstream⟩ := outputLengthLaw s t o ws hp hn h
  obtain ⟨v, hinit, hparams, hinv, -, -, hbits⟩ := brInit_reader hpu (Nat.le_add_right a _) hfit
  rw [State.srcBits_eq_dstBits hcopy, Nat.add_sub_cancel' (by omega), hstream] at hbits
  obtain ⟨w, hw⟩ := readAll_of_writes (hparams ▸ hpu) hinv hbits
  exact ⟨w, by rw [readStream, hinit, Res.bind_ok, hw]⟩

end Sys2Proof.Machine
end

section
/-! Which DST bytes an instruction stores (R162, R164, R246, R248, R290, R296, R298). -/

namespace Sys2Proof.Machine

/-! ## The writer's stores -/

/-- From `s` to `t` the writer's position has moved on, and DST differs only in the bytes it passed (R162). -/
structure State.StoresPassed (s t : State) : Prop where
  params : t.params = s.params
  pos_le : s.bw.pos.toNat ≤ t.bw.pos.toNat
  outside : ∀ j, j < s.bw.pos.toNat ∨ t.bw.pos.toNat ≤ j → t.dstAt j = s.dstAt j

theorem State.StoresPassed.refl (s : State) : s.StoresPassed s := ⟨rfl, le_rfl, fun _ _ => rfl⟩

theorem State.StoresPassed.trans {s t u : State} (h : s.StoresPassed t) (h' : t.StoresPassed u) : s.StoresPassed u where
  params := h'.params.trans h.params
  pos_le := h.pos_le.trans h'.pos_le
  outside j hj := by
    have hle := h.pos_le
    have hle' := h'.pos_le
    rw [h'.outside j (by omega), h.outside j (by omega)]

/-- A rule run after a store stores on from there. -/
theorem Res.All.storesPassed_trans {α : Type} {s t : State} {r : Res α} (h : s.StoresPassed t)
    (hr : r.All t.StoresPassed) : r.All s.StoresPassed := hr.mono fun _ => h.trans

section
variable {s : State} (hp : s.params.legal)
include hp

/-- writeBits passes its whole bytes (R162). -/
theorem writeBits_passes (v n : Nat) : (writeBits v n s).All fun t =>
    s.StoresPassed t ∧ t.bw.pos.toNat ≤ s.bw.pos.toNat + (s.bw.cnt.toNat + n) / 8 := by
  rcases writeBits_cases v n s with ⟨t, h⟩ | ⟨-, h⟩
  · obtain ⟨-, -, -, hdst, -⟩ := hp
    obtain ⟨⟨dst, bw, hframe⟩, hpos, -, -, -, houtside, -⟩ := writeBits_spec v n s t hdst h
    exact .of_ok h ⟨⟨by rw [hframe], by omega, houtside⟩, hpos.le⟩
  · exact .of_raised h ⟨.refl s, Nat.le_add_right _ _⟩

/-- flush passes at most one byte (R164). -/
theorem flush_passes : (flush s).All fun t => s.StoresPassed t ∧ t.bw.pos.toNat ≤ s.bw.pos.toNat + 1 := by
  rcases Nat.eq_zero_or_pos s.bw.cnt.toNat with hempty | hpending
  · exact .of_ok (flush_of_empty hempty) ⟨⟨rfl, le_rfl, fun _ _ => rfl⟩, Nat.le_succ _⟩
  · rcases le_or_gt (s.bw.pos.toNat + 1) s.params.dstSize with hfit | hfull
    · obtain ⟨-, -, -, hdst, -⟩ := hp
      have hpos : (Word.ofNat (s.bw.pos.toNat + 1)).toNat = s.bw.pos.toNat + 1 := Word.toNat_ofNat_of_lt (by omega)
      refine .of_ok (flush_of_pending hpending hfit) ⟨⟨rfl, (Nat.le_succ _).trans_eq hpos.symm, fun j hj => ?_⟩, hpos.le⟩
      dsimp only at hj
      exact (getD_get?_put_singleton s.dst _ _ j _).trans (if_neg (by omega))
    · exact .of_raised (flush_of_full hpending hfull) ⟨.refl s, Nat.le_succ _⟩

theorem writeBits_storesPassed (v n : Nat) : (writeBits v n s).All s.StoresPassed :=
  (writeBits_passes hp v n).mono fun _ h => h.1

theorem flush_storesPassed : (flush s).All s.StoresPassed := (flush_passes hp).mono fun _ h => h.1

theorem writeAll_storesPassed (ws : List (Nat × Nat)) : (writeAll ws s).All s.StoresPassed := by
  induction ws generalizing s with
  | nil => exact .of_ok rfl (.refl s)
  | cons x ws ih =>
    exact (writeBits_storesPassed hp x.1 x.2).bind fun _ _ ht => (ih (ht.params ▸ hp)).storesPassed_trans ht

theorem huffSerialize_storesPassed : (huffSerialize s).All s.StoresPassed :=
  withTree_all (.refl s) fun tree => (writeAll_storesPassed hp tree.serialWrites).results _

theorem encodeTokens_storesPassed (toks : List Token) (i k : Nat) : (encodeTokens toks i k s).All s.StoresPassed := by
  induction toks generalizing i k s with
  | nil => exact .of_ok rfl (.refl s)
  | cons tok toks ih =>
    exact .ite (fun _ => .of_raised rfl (.refl s)) fun _ => (writeBits_storesPassed hp _ _).bind fun _ t ht =>
      .storesPassed_trans ht <| (writeBits_storesPassed (ht.params ▸ hp) _ _).bind fun _ u hu =>
      .storesPassed_trans hu <| ih (hu.params ▸ ht.params ▸ hp) _ _

end

/-! ## COMPRESS -/

/-- The parameters, and DST from byte 9 on, are as in `s`: so COMPRESS leaves them up to its BW_INIT (R290). -/
def State.SameBody (s t : State) : Prop := t.params = s.params ∧ ∀ j, 9 ≤ j → t.dstAt j = s.dstAt j

/-- DST is as in `s` from byte 9 on but for what the writer has passed. -/
def State.SameBeyondWriter (s t : State) : Prop := ∀ j, 9 ≤ j → t.bw.pos.toNat ≤ j → t.dstAt j = s.dstAt j

theorem State.SameBody.beyondWriter {s t : State} (h : s.SameBody t) : s.SameBeyondWriter t := fun j hj _ => h.2 j hj

/-- A sequence ends with R when its first step ends with P, which is at least R, and the others take P to R. -/
theorem Res.All.bind_of_imp {α β : Type} {P R : State → Prop} {r : Res α} {k : α → State → Res β} (hr : r.All P)
    (hPR : ∀ s, P s → R s) (hk : ∀ a s, P s → (k a s).All R) : (r.bind k).All R :=
  (hr.gives.mono (fun _ _ h => h) hPR).bind hk

theorem checkConfig_unchanged (s : State) : (checkConfig s).All (· = s) := by
  cases h : s.lzConfig.firstBad with
  | none => exact .of_ok (checkConfig_of_ok s h) rfl
  | some x => exact .of_raised (checkConfig_of_bad s x.1 x.2 h) rfl

theorem State.SameBody.putHeader {s t : State} (h : s.SameBody t) (dataType auxWidth n : Nat) :
    s.SameBody (t.putDst 0 (headerBytes dataType auxWidth n)) := by
  have hlen : (headerBytes dataType auxWidth n).length = 9 := by simp [headerBytes]
  refine ⟨h.1, fun j hj => ?_⟩
  rw [State.dstAt_putDst, if_neg (by omega), h.2 j hj]

/-- From BW_INIT 9 on, COMPRESS stores what its writer passes (R290). -/
theorem compress_body_stores {α : Type} {s t : State} (hp : s.params.legal) (h : s.SameBody t) (f : State → α) :
    ((bwInit 9 t).bind fun _ t => (huffSerialize t).bind fun _ t => (huffEncode t).bind fun _ t =>
      (flush t).bind fun _ t => .ok (f t) t).All s.SameBeyondWriter := by
  have hpt : t.params.legal := h.1 ▸ hp
  have hnine : 9 ≤ t.params.dstSize := by
    obtain ⟨-, -, hnine, -⟩ := hpt
    exact hnine
  obtain ⟨u, hinit, hparams, -, hpos, -, -⟩ := bwInit_writer hpt hnine
  have hpu : u.params.legal := hparams ▸ hpt
  have hu : s.SameBody u := by
    cases (bwInit_of_le 9 t hnine).symm.trans hinit
    exact h
  rw [hinit, Res.bind_ok]
  refine Res.All.mono (P := u.StoresPassed) ?_ fun w hw j hj hjw => (hw.outside j (.inr hjw)).trans (hu.2 j hj)
  refine (huffSerialize_storesPassed hpu).bind fun _ v hv => ?_
  refine ((encodeTokens_storesPassed (hv.params ▸ hpu) _ _ _).storesPassed_trans hv).bind fun _ w hw => ?_
  exact ((flush_storesPassed (hw.params ▸ hpu)).storesPassed_trans hw).bind fun _ _ hx => .of_ok rfl hx

/-- COMPRESS stores its header, and the bytes from 9 to the writer's new position (R290). -/
theorem compress_stores (n dataType auxWidth : Nat) {s : State} (hp : s.params.legal) :
    (compress n dataType auxWidth s).All s.SameBeyondWriter := by
  have hend (t : State) (h : s.SameBody t) : s.SameBeyondWriter t := h.beyondWriter
  have hs : s.SameBody s := ⟨rfl, fun _ _ => rfl⟩
  unfold compress
  split
  · exact .of_raised rfl hs.beyondWriter
  · refine ((checkConfig_unchanged s).mono fun t ht => ht ▸ hs).bind_of_imp hend fun _ t ht => ?_
    refine ((lzMatch_sameButTokens n t).mono fun _ ⟨_, _, hu⟩ => hu ▸ ht).bind_of_imp hend fun _ t ht => ?_
    refine ((freqCount_sameButFreq t).mono fun _ ⟨_, hu⟩ => hu ▸ ht).bind_of_imp hend fun _ t ht => ?_
    refine ((huffBuild_sameButTree t).mono fun _ ⟨_, _, hu⟩ => hu ▸ ht).bind_of_imp hend fun _ t ht => ?_
    refine ((huffCodes_sameButCode t).mono fun _ ⟨_, hu⟩ => hu ▸ ht).bind_of_imp hend fun _ t ht => ?_
    exact compress_body_stores hp (ht.putHeader dataType auxWidth n) _

/-! ## The decode loop -/

theorem State.dstAt_appendByte (s : State) (v : Byte) (j : Nat) :
    (s.appendByte v).dstAt j = if j = s.outLen.toNat then v else s.dstAt j :=
  getD_get?_put_singleton s.dst _ v j _

/-- The copy of `len` bytes stores from OUT_LEN on (R298). -/
theorem copyBytes_stores (dist len : Nat) {s : State} (h : s.outLen.toNat + len < 2 ^ 64) {j : Nat}
    (hj : j < s.outLen.toNat ∨ s.outLen.toNat + len ≤ j) : (copyBytes dist len s).dstAt j = s.dstAt j := by
  induction len generalizing s with
  | zero => rfl
  | succ len ih =>
    have hout (v : Byte) : (s.appendByte v).outLen.toNat = s.outLen.toNat + 1 := Word.toNat_ofNat_of_lt (by omega)
    rw [copyBytes, ih (by rw [hout]; omega) (by rw [hout]; omega), State.dstAt_appendByte, if_neg (by omega)]

/-- LIT stores at OUT_LEN, or raises and stores nothing (R296). -/
theorem execLit_stores {v : Byte} {s t : State} (h : execLit v s = .next t) {j : Nat} (hj : j ≠ s.outLen.toNat) :
    t.dstAt j = s.dstAt j := by
  refine asPrimary_next (P := fun t => t.dstAt j = s.dstAt j) h (fun _ _ _ => rfl) fun h => ?_
  split at h
  · cases h; rfl
  · cases h
    rw [State.dstAt_appendByte, if_neg hj]

/-- The end of a back-reference stores its length of bytes from OUT_LEN on (R298). -/
theorem copyBack_stores (len dist : Nat) {s : State} (h : s.dec.len < 2 ^ 64) {j : Nat}
    (hj : j < s.outLen.toNat ∨ s.outLen.toNat + len ≤ j) : (copyBack len dist s).All fun t => t.dstAt j = s.dstAt j :=
  .ite (fun _ => .of_raised rfl rfl) fun _ => .ite (fun _ => .of_raised rfl rfl) fun hfit =>
    .of_ok rfl (copyBytes_stores dist len (by omega) hj)

/-- A distance symbol stores the waiting length of bytes from OUT_LEN on, or raises and stores nothing (R298). -/
theorem execDistance_stores {k len : Nat} {s t : State} (hwait : s.dec.pendingLen = some len) (hlen : s.dec.len < 2 ^ 64)
    (h : execDistance k s = .next t) {j : Nat} (hj : j < s.outLen.toNat ∨ s.outLen.toNat + len ≤ j) :
    t.dstAt j = s.dstAt j := by
  unfold execDistance at h
  rw [hwait] at h
  dsimp only at h
  split at h
  · cases h; rfl
  · rename_i db de _
    have hcopy := ((readBits_sameButReader de s).raiseAs .endOfStream s.outLen.toNat k).bind_of_imp
      (R := fun t => t.dstAt j = s.dstAt j) (k := fun x u => copyBack len (db + x) u)
      (fun _ ⟨_, hu⟩ => by rw [hu]; rfl)
      fun x _ ⟨br, hu⟩ => hu ▸ copyBack_stores (s := { s with br := br }) len (db + x) hlen hj
    obtain ⟨u, hu, ht⟩ := hcopy.goOn_sameButOutcome h
    rw [ht.dstAt, hu]

/-! ## The instructions -/

/-- Settles O59: each storing instruction by its rule. -/
theorem dstStoresStayInPlace : Obligations.DstStoresStayInPlace := by
  intro s t hp
  have hdst : s.params.dstSize ≤ 2 ^ 40 := by
    obtain ⟨-, -, -, hdst, -⟩ := hp
    exact hdst
  refine ⟨fun h j hj => ?_, fun h j hj => ?_, fun h j hj => ?_, fun h j hj => ?_, fun h j hj hpos => ?_,
    fun v h j hj => execLit_stores h hj, fun k i len hk hwait hlen h j hj => ?_⟩
  · obtain ⟨u, ⟨hu, hpos⟩, ht⟩ := (Res.All.ite (fun _ => .of_raised rfl ⟨.refl s, Nat.le_add_right _ _⟩)
      fun _ => (writeBits_passes hp s.arg0 s.arg1).results _).finish_sameButOutcome h
    rw [ht.dstAt, hu.outside j (hj.imp_right hpos.trans)]
  · obtain ⟨u, ⟨hu, hpos⟩, ht⟩ := ((flush_passes hp).results _).finish_sameButOutcome h
    rw [ht.dstAt, hu.outside j (by omega)]
  · obtain ⟨u, hu, ht⟩ := ((huffSerialize_storesPassed hp).results _).finish_sameButOutcome h
    rw [ht.dstAt, hu.outside j (ht.bw ▸ hj)]
  · obtain ⟨u, hu, ht⟩ := ((encodeTokens_storesPassed hp _ _ _).results _).finish_sameButOutcome h
    rw [ht.dstAt, hu.outside j (ht.bw ▸ hj)]
  · obtain ⟨u, hu, ht⟩ := ((compress_stores s.arg0 s.arg1 s.arg2 hp).results _).finish_sameButOutcome h
    rw [ht.dstAt, hu j hj (ht.bw ▸ hpos)]
  · rw [exec_of_mem_distanceSymbolTable s _ hk] at h
    exact execDistance_stores hwait (by omega) h hj

end Sys2Proof.Machine
end

section
/-! The alphabet's tables: the row of a code, the row that holds a value, and the four commands over them (R190 to R200). -/

namespace Sys2Proof.Machine

/-! ## A table by its codes -/

/-- The base and the extra bits of a code, in a table (R194, R198). -/
def baseOf (rows : List BucketRow) (c : Nat) : Option (Nat × Nat) :=
  (rowOfCode rows c).map fun r => (r.base, r.extra)

section
variable {rows : List BucketRow} {c a n : Nat} {r : BucketRow}

theorem rowOfCode_eq_some (h : rowOfCode rows c = some r) : r ∈ rows ∧ r.code = c :=
  ⟨List.mem_of_find?_eq_some h, by simpa using List.find?_some h⟩

/-- A code has one row at most, when the table's codes are distinct. -/
theorem rowOfCode_of_mem (hnd : (rows.map BucketRow.code).Nodup) (h : r ∈ rows) : rowOfCode rows r.code = some r := by
  have hsome : (rowOfCode rows r.code).isSome := List.find?_isSome.2 ⟨r, h, beq_self_eq_true _⟩
  obtain ⟨r', h'⟩ := Option.isSome_iff_exists.1 hsome
  obtain ⟨hmem, hcode⟩ := rowOfCode_eq_some h'
  rw [h', List.inj_on_of_nodup_map hnd hmem h hcode]

theorem baseOf_of_mem (hnd : (rows.map BucketRow.code).Nodup) (h : r ∈ rows) :
    baseOf rows r.code = some (r.base, r.extra) := by
  rw [baseOf, rowOfCode_of_mem hnd h, Option.map_some]

theorem exists_baseOf (hnd : (rows.map BucketRow.code).Nodup) (h : c ∈ rows.map BucketRow.code) :
    ∃ b e, baseOf rows c = some (b, e) := by
  obtain ⟨r, hmem, rfl⟩ := List.mem_map.1 h
  exact ⟨r.base, r.extra, baseOf_of_mem hnd hmem⟩

/-- What a table answers are its rows (R194, R198). -/
theorem baseOf_eq_some_iff (hnd : (rows.map BucketRow.code).Nodup) {b e : Nat} :
    baseOf rows c = some (b, e) ↔ (c, b, e) ∈ rows.map fun r => (r.code, r.base, r.extra) := by
  rw [List.mem_map]
  constructor
  · intro h
    obtain ⟨r, hr, hbe⟩ := Option.map_eq_some_iff.1 h
    obtain ⟨hmem, rfl⟩ := rowOfCode_eq_some hr
    exact ⟨r, hmem, congrArg (Prod.mk r.code) hbe⟩
  · rintro ⟨r, hmem, heq⟩
    cases heq
    exact baseOf_of_mem hnd hmem

/-- Outside its codes a table answers nothing. -/
theorem baseOf_eq_none_iff : baseOf rows c = none ↔ c ∉ rows.map BucketRow.code := by
  simp [baseOf, rowOfCode]

end

/-! ## A table by its values -/

/-- The rows' ranges follow each other without gap or overlap, from `lo` up to `hi`, which is the first value outside. -/
def Tiles : List BucketRow → Nat → Nat → Prop
  | [], lo, hi => lo = hi
  | r :: rows, lo, hi => r.base = lo ∧ Tiles rows (lo + 2 ^ r.extra) hi

/-- `t` is the token of `v` in a row whose range holds it (R192, R196). -/
def EncodedBy (rows : List BucketRow) (v : Nat) (t : Token) : Prop :=
  ∃ r ∈ rows, r.base ≤ v ∧ v < r.base + 2 ^ r.extra ∧ t = r.token v

section
variable {rows : List BucketRow} {lo hi v w : Nat} {t : Token}

/-- A value of the tiled range has a row, which bucketOf finds. -/
theorem bucketOf_of_tiles (h : Tiles rows lo hi) (hlo : lo ≤ v) (hhi : v < hi) :
    ∃ r ∈ rows, bucketOf rows v = some r ∧ r.base ≤ v ∧ v < r.base + 2 ^ r.extra := by
  induction rows generalizing lo with
  | nil => cases h; omega
  | cons r rows ih =>
    obtain ⟨rfl, htail⟩ := h
    have hpos : 0 < 2 ^ r.extra := Nat.two_pow_pos _
    by_cases hv : v < r.base + 2 ^ r.extra
    · refine ⟨r, List.mem_cons_self, List.find?_cons_of_pos ?_, hlo, hv⟩
      simp only [Bool.and_eq_true, decide_eq_true_eq]
      omega
    · obtain ⟨r', hmem, hr', hin⟩ := ih htail (Nat.le_of_not_lt hv)
      refine ⟨r', List.mem_cons_of_mem r hmem, (List.find?_cons_of_neg ?_).trans hr', hin⟩
      simp only [Bool.and_eq_true, decide_eq_true_eq]
      omega

/-- base + extraValue recovers the value, and the extra bits hold the extra value (R194, R200). -/
theorem EncodedBy.roundTrip (h : EncodedBy rows v t) (hnd : (rows.map BucketRow.code).Nodup) :
    t.xval < 2 ^ t.xbits ∧ ∃ b, baseOf rows t.sym = some (b, t.xbits) ∧ b + t.xval = v := by
  obtain ⟨r, hmem, hle, hlt, rfl⟩ := h
  exact ⟨Nat.sub_lt_left_of_lt_add hle hlt, r.base, baseOf_of_mem hnd hmem, Nat.add_sub_cancel' hle⟩

/-- One token encodes one value (R200). -/
theorem EncodedBy.value_unique (h : EncodedBy rows v t) (h' : EncodedBy rows w t)
    (hnd : (rows.map BucketRow.code).Nodup) : v = w := by
  obtain ⟨-, b, hb, hv⟩ := h.roundTrip hnd
  obtain ⟨-, b', hb', hw⟩ := h'.roundTrip hnd
  rw [hb] at hb'
  cases hb'
  exact hv.symm.trans hw

end

/-! ## The length table and the distance table -/

/-- The length table, code 285 included (R190). -/
def allLengthRows : List BucketRow := lengthRows ++ [lastLengthRow]

theorem codeToLengthBase_eq (c : Nat) : codeToLengthBase c = baseOf allLengthRows c := rfl

theorem codeToDistanceBase_eq (c : Nat) : codeToDistanceBase c = baseOf distanceRows c := rfl

theorem lengthCodes_eq : allLengthRows.map BucketRow.code = List.range' 257 29 := rfl

theorem distanceCodes_eq : distanceRows.map BucketRow.code = List.range' 300 32 := rfl

theorem lengthCodes_nodup : (allLengthRows.map BucketRow.code).Nodup := lengthCodes_eq ▸ List.nodup_range'

theorem distanceCodes_nodup : (distanceRows.map BucketRow.code).Nodup := distanceCodes_eq ▸ List.nodup_range'

theorem codeToLengthBase_eq_none_iff (c : Nat) : codeToLengthBase c = none ↔ c < 257 ∨ 285 < c := by
  rw [codeToLengthBase_eq, baseOf_eq_none_iff, lengthCodes_eq, List.mem_range'_1]
  omega

theorem codeToDistanceBase_eq_none_iff (c : Nat) : codeToDistanceBase c = none ↔ c < 300 ∨ 331 < c := by
  rw [codeToDistanceBase_eq, baseOf_eq_none_iff, distanceCodes_eq, List.mem_range'_1]
  omega

theorem exists_codeToLengthBase {c : Nat} (h : 257 ≤ c) (h' : c ≤ 285) : ∃ b e, codeToLengthBase c = some (b, e) :=
  exists_baseOf lengthCodes_nodup (lengthCodes_eq ▸ List.mem_range'_1.2 ⟨h, Nat.lt_succ_of_le h'⟩)

theorem exists_codeToDistanceBase {c : Nat} (h : 300 ≤ c) (h' : c ≤ 331) : ∃ b e, codeToDistanceBase c = some (b, e) :=
  exists_baseOf distanceCodes_nodup (distanceCodes_eq ▸ List.mem_range'_1.2 ⟨h, Nat.lt_succ_of_le h'⟩)

theorem lengthRows_tile : Tiles lengthRows 3 259 := by simp [Tiles, lengthRows]

theorem distanceRows_tile : Tiles distanceRows 1 65537 := by simp [Tiles, distanceRows]

/-- Every length of [3, 258] is in a row of the length table; 258 is in code 285's (R192). -/
theorem lengthToCode_encodedBy {l : Nat} (h : 3 ≤ l) (h' : l ≤ 258) :
    EncodedBy allLengthRows l (lengthToCode l) := by
  unfold lengthToCode
  split
  · subst l
    exact ⟨lastLengthRow, List.mem_append_right _ List.mem_cons_self, le_rfl, Nat.lt_succ_self _, rfl⟩
  · obtain ⟨r, hmem, hr, hle, hlt⟩ := bucketOf_of_tiles lengthRows_tile h (Nat.lt_succ_of_le h')
    rw [hr, Option.getD_some]
    exact ⟨r, List.mem_append_left _ hmem, hle, hlt, rfl⟩

/-- Every distance of [1, 65536] is in a row of the distance table (R196). -/
theorem distanceToCode_encodedBy {d : Nat} (h : 1 ≤ d) (h' : d ≤ 65536) :
    EncodedBy distanceRows d (distanceToCode d) := by
  obtain ⟨r, hmem, hr, hle, hlt⟩ := bucketOf_of_tiles distanceRows_tile h (Nat.lt_succ_of_le h')
  rw [distanceToCode, hr, Option.getD_some]
  exact ⟨r, hmem, hle, hlt, rfl⟩

theorem inAlphabet_iff (c : Nat) : inAlphabet c = true ↔ c ≤ 285 ∨ 300 ≤ c ∧ c ≤ 331 := by
  simp [inAlphabet]

/-- Settles O28: the tables' codes are distinct and their ranges tile the domains, so each value has one row and comes back
from it; the lengths' codes lie below the distances'. -/
theorem alphabetBijection : Obligations.AlphabetBijection := by
  refine ⟨fun c b e => baseOf_eq_some_iff lengthCodes_nodup, fun c b e => baseOf_eq_some_iff distanceCodes_nodup,
    fun l h h' => (lengthToCode_encodedBy h h').roundTrip lengthCodes_nodup, rfl,
    fun d h h' => (distanceToCode_encodedBy h h').roundTrip distanceCodes_nodup,
    fun l l' h h' k k' heq => ?_, fun d d' h h' k k' heq => ?_, fun c hc => ?_, fun c hc => ?_, inAlphabet_iff⟩
  · exact (lengthToCode_encodedBy h h').value_unique (heq ▸ lengthToCode_encodedBy k k') lengthCodes_nodup
  · exact (distanceToCode_encodedBy h h').value_unique (heq ▸ distanceToCode_encodedBy k k') distanceCodes_nodup
  · rw [Ne, codeToLengthBase_eq_none_iff] at hc
    rw [inAlphabet_iff, codeToDistanceBase_eq_none_iff]
    omega
  · rw [Ne, codeToDistanceBase_eq_none_iff] at hc
    rw [inAlphabet_iff]
    omega

/-! ## The commands -/

section
variable {s : State}

/-- LEN_ENC answers the token of a length of [3, 258] (R193). -/
theorem exec_lenEnc_of_mem (h : 3 ≤ s.arg0) (h' : s.arg0 ≤ 258) :
    exec .lenEnc s = .next (s.complete (lengthToCode s.arg0).results) :=
  congrArg Res.finish (if_neg (by simp only [Config.lenMin, Config.lenMax]; omega))

theorem exec_lenEnc_of_not_mem (h : s.arg0 < 3 ∨ 258 < s.arg0) :
    exec .lenEnc s = .next (s.raise .badArgument 0 s.arg0) :=
  congrArg Res.finish (if_pos h)

/-- LEN_DEC answers the base and the extra bits of a length code (R195). -/
theorem exec_lenDec_of_some {b e : Nat} (h : codeToLengthBase s.arg0 = some (b, e)) :
    exec .lenDec s = .next (s.afterDone { s.res with r0 := Word.ofNat b, r1 := Word.ofNat e }) := by
  simp only [exec, execLenDec, h, Res.finish_ok]
  rfl

theorem exec_lenDec_of_none (h : codeToLengthBase s.arg0 = none) :
    exec .lenDec s = .next (s.raise .badArgument 0 s.arg0) := by
  simp only [exec, execLenDec, h, Res.finish_raised]

/-- DIST_DEC answers the base and the extra bits of a distance code (R199). -/
theorem exec_distDec_of_some {b e : Nat} (h : codeToDistanceBase s.arg0 = some (b, e)) :
    exec .distDec s = .next (s.afterDone { s.res with r0 := Word.ofNat b, r1 := Word.ofNat e }) := by
  simp only [exec, execDistDec, h, Res.finish_ok]
  rfl

theorem exec_distDec_of_none (h : codeToDistanceBase s.arg0 = none) :
    exec .distDec s = .next (s.raise .badArgument 0 s.arg0) := by
  simp only [exec, execDistDec, h, Res.finish_raised]

/-- An illegal CFG_WINDOW comes first, with the register's offset (R197). -/
theorem exec_distEnc_of_bad_window (h : s.cfg.window.toNat < 1 ∨ 65536 < s.cfg.window.toNat) :
    exec .distEnc s = .next (s.raise .badArgument 0x80 s.cfg.window.toNat) :=
  congrArg Res.finish (if_pos (by simp [windowOk]; omega))

/-- With a legal CFG_WINDOW what is left is the check of the distance (R197). -/
theorem exec_distEnc_of_window (hw : 1 ≤ s.cfg.window.toNat) (hw' : s.cfg.window.toNat ≤ 65536) :
    exec .distEnc s = (if s.arg0 < 1 ∨ s.arg0 > s.cfg.window.toNat then Res.raised .badArgument 0 s.arg0 s
      else .ok (distanceToCode s.arg0).results s).finish :=
  congrArg Res.finish (if_neg (by simp [windowOk, hw, hw']))

/-- DIST_ENC answers the token of a distance in the window (R197). -/
theorem exec_distEnc_of_mem (hw : 1 ≤ s.cfg.window.toNat) (hw' : s.cfg.window.toNat ≤ 65536) (h : 1 ≤ s.arg0)
    (h' : s.arg0 ≤ s.cfg.window.toNat) : exec .distEnc s = .next (s.complete (distanceToCode s.arg0).results) := by
  rw [exec_distEnc_of_window hw hw', if_neg (by omega), Res.finish_ok]

theorem exec_distEnc_of_not_mem (hw : 1 ≤ s.cfg.window.toNat) (hw' : s.cfg.window.toNat ≤ 65536)
    (h : s.arg0 < 1 ∨ s.cfg.window.toNat < s.arg0) : exec .distEnc s = .next (s.raise .badArgument 0 s.arg0) := by
  rw [exec_distEnc_of_window hw hw', if_pos h, Res.finish_raised]

end

/-- Settles O27: each command on its domain and outside it. -/
theorem alphabetCommandsComplete : Obligations.AlphabetCommandsComplete := by
  intro s x w
  refine ⟨exec_lenEnc_of_mem, exec_lenEnc_of_not_mem, fun h h' => ?_,
    fun h => exec_lenDec_of_none ((codeToLengthBase_eq_none_iff x).2 h), exec_distEnc_of_mem, exec_distEnc_of_bad_window,
    exec_distEnc_of_not_mem, fun h h' => ?_, fun h => exec_distDec_of_none ((codeToDistanceBase_eq_none_iff x).2 h)⟩
  · obtain ⟨b, e, hbase⟩ := exists_codeToLengthBase h h'
    exact ⟨b, e, hbase, exec_lenDec_of_some hbase⟩
  · obtain ⟨b, e, hbase⟩ := exists_codeToDistanceBase h h'
    exact ⟨b, e, hbase, exec_distDec_of_some hbase⟩

end Sys2Proof.Machine
end

section
/-! What the matcher finds: a candidate of the chain with its agreeing bytes (R214 to R217), and the token stream from each
scan position (R213, R219, R220). -/

namespace Sys2Proof.Machine

/-! ## Matches -/

/-- `m` is a match at `p`, as (length, distance): at most Lmax bytes, inside the input, that stand in the window before `p`
too (R215 to R217). -/
structure IsMatch (c : LzConfig) (b : Nat → Nat) (n p : Nat) (m : Nat × Nat) : Prop where
  len_le : m.1 ≤ min c.maxMatch (n - p)
  dist_pos : 1 ≤ m.2
  dist_le : m.2 ≤ min c.window p
  agree : ∀ i, i < m.1 → b (p - m.2 + i) = b (p + i)

section
variable {c : LzConfig} {b : Nat → Nat} {n p q i limit : Nat}

/-- A candidate lies before the search position, in the window (R214, R215). -/
theorem lt_of_mem_lzChain (h : q ∈ lzChain c b p) : q < p ∧ p - q ≤ c.window := by
  obtain ⟨k, hk, rfl⟩ := List.mem_map.1 (List.mem_filter.1 (List.mem_of_mem_take h)).1
  have := List.mem_range.1 hk
  omega

theorem matchLen_le (b : Nat → Nat) (q p limit : Nat) : matchLen b q p limit ≤ limit := by
  induction limit generalizing q p with
  | zero => exact le_rfl
  | succ limit ih =>
    rw [matchLen]
    split
    · exact Nat.succ_le_succ (ih _ _)
    · exact Nat.zero_le _

/-- The bytes of a match agree (R216). -/
theorem agree_of_lt_matchLen (h : i < matchLen b q p limit) : b (q + i) = b (p + i) := by
  induction limit generalizing q p i with
  | zero => cases h
  | succ limit ih =>
    rw [matchLen] at h
    split at h
    · cases i with
      | zero => assumption
      | succ i =>
        have := ih (Nat.lt_of_succ_lt_succ h)
        rwa [Nat.add_right_comm, Nat.add_right_comm p] at this
    · cases h

/-- A match is taken when it is long enough and the next position's does not put it off (R213, R218). -/
theorem takesMatch_iff {m : Nat × Nat} : takesMatch c b n p m = true ↔
    let next := if p + 1 < n then findMatch c b n (p + 1) else (0, 0)
    c.minMatch ≤ m.1 ∧ ¬(m.1 < next.1 ∨ (next.1 = m.1 ∧ next.2 < m.2 / c.lazyDiv)) := by
  simp [takesMatch, lazyDefer, imp_iff_not_or]

theorem isMatch_of_mem_lzChain (h : q ∈ lzChain c b p) :
    IsMatch c b n p (matchLen b q p (min c.maxMatch (n - p)), p - q) := by
  obtain ⟨hlt, hwindow⟩ := lt_of_mem_lzChain h
  refine ⟨matchLen_le b q p _, Nat.sub_pos_of_lt hlt, le_min hwindow (Nat.sub_le p q), fun i hi => ?_⟩
  rw [Nat.sub_sub_self hlt.le]
  exact agree_of_lt_matchLen hi

/-- The search answers the best match so far, or one candidate's (R217). -/
theorem bestOf_induction {P : Nat × Nat → Prop} {qs : List Nat} {best : Nat × Nat} (hbest : P best)
    (hqs : ∀ q ∈ qs, P (matchLen b q p limit, p - q)) : P (bestOf b p limit qs best) := by
  induction qs generalizing best with
  | nil => exact hbest
  | cons q qs ih =>
    have hbest' : P (if matchLen b q p limit > best.1 then (matchLen b q p limit, p - q) else best) := by
      split
      · exact hqs q List.mem_cons_self
      · exact hbest
    rw [bestOf]
    split
    · exact hbest'
    · exact ih hbest' fun q' hq' => hqs q' (List.mem_cons_of_mem q hq')

/-- What findMatch finds is a match (R217). -/
theorem isMatch_findMatch (h : 0 < (findMatch c b n p).1) : IsMatch c b n p (findMatch c b n p) := by
  rcases Nat.lt_or_ge n (p + 3) with hshort | hlong
  · rw [findMatch_of_short hshort] at h
    cases h
  · rw [findMatch, if_neg (by omega)] at h ⊢
    exact bestOf_induction (P := fun m => 0 < m.1 → IsMatch c b n p m) (fun h => by cases h)
      (fun q hq _ => isMatch_of_mem_lzChain hq) h

end

/-! ## The token stream from a scan position -/

/-- At the input's end the scan emits nothing (R219). -/
theorem lzScan_of_ge (c : LzConfig) (b : Nat → Nat) {n p : Nat} (h : n ≤ p) (fuel : Nat) : lzScan c b n fuel p = [] := by
  cases fuel with
  | zero => rfl
  | succ fuel => rw [lzScan, if_neg (Nat.not_lt_of_le h)]

/-- Any number of passes that is enough for the bytes left emits the same tokens (R219). -/
theorem lzScan_eq_of_enough {c : LzConfig} (hc : 3 ≤ c.minMatch) (b : Nat → Nat) {n p fuel fuel' : Nat} (h : n - p ≤ fuel)
    (h' : n - p ≤ fuel') : lzScan c b n fuel p = lzScan c b n fuel' p := by
  induction fuel generalizing p fuel' with
  | zero => rw [lzScan_of_ge c b (Nat.le_of_sub_eq_zero (Nat.le_zero.1 h)), lzScan_of_ge c b (by omega)]
  | succ fuel ih =>
    by_cases hp : p < n
    · obtain ⟨k, rfl⟩ := Nat.exists_eq_add_one_of_ne_zero (show fuel' ≠ 0 by omega)
      rw [lzScan, lzScan, if_pos hp, if_pos hp]
      dsimp only
      split
      · rename_i ht
        obtain ⟨-, hlen⟩ := le_of_takesMatch hc ht
        rw [ih (fuel' := k) (by omega) (by omega)]
      · rw [ih (fuel' := k) (by omega) (by omega)]
    · rw [lzScan_of_ge c b (Nat.le_of_not_lt hp), lzScan_of_ge c b (Nat.le_of_not_lt hp)]

/-- The tokens from scan position p to the end of the stream (R213, R219, R220). -/
def tokensFrom (c : LzConfig) (b : Nat → Nat) (n p : Nat) : List Token := lzScan c b n (n - p) p ++ [eosToken]

theorem lzTokens_eq_tokensFrom (c : LzConfig) (b : Nat → Nat) (n : Nat) : lzTokens c b n = tokensFrom c b n 0 := rfl

section
variable {c : LzConfig} {b : Nat → Nat} {n p : Nat}

/-- At the end of the input the stream ends (R220). -/
theorem tokensFrom_of_ge (h : n ≤ p) : tokensFrom c b n p = [eosToken] := by
  rw [tokensFrom, lzScan_of_ge c b h, List.nil_append]

/-- A match that is taken, or the byte, then the stream from where it ends (R213, R219). -/
theorem tokensFrom_of_lt (hc : 3 ≤ c.minMatch) (h : p < n) :
    tokensFrom c b n p = if takesMatch c b n p (findMatch c b n p) then
      lengthToCode (findMatch c b n p).1 :: distanceToCode (findMatch c b n p).2 ::
        tokensFrom c b n (p + (findMatch c b n p).1)
      else literalToken (b p) :: tokensFrom c b n (p + 1) := by
  obtain ⟨k, hk⟩ := Nat.exists_eq_add_one_of_ne_zero (show n - p ≠ 0 by omega)
  rw [tokensFrom, hk, lzScan, if_pos h]
  dsimp only
  split
  · rename_i ht
    obtain ⟨-, hlen⟩ := le_of_takesMatch hc ht
    rw [lzScan_eq_of_enough hc b (fuel' := n - (p + (findMatch c b n p).1)) (by omega) le_rfl]
    rfl
  · rw [lzScan_eq_of_enough hc b (fuel' := n - (p + 1)) (by omega) le_rfl]
    rfl

theorem tokensFrom_ne_nil : tokensFrom c b n p ≠ [] := by simp [tokensFrom]

end

end Sys2Proof.Machine
end

section
/-! The replay of the matcher's tokens rebuilds the input (R223). -/

namespace Sys2Proof.Machine

/-! ## One token, or two, replayed -/

section
variable {c : LzConfig} {out : List Nat} {rest : List Token}

theorem replay_eos : replay c [eosToken] out = some out := if_pos rfl

/-- A literal replays as its byte (R219, R223). -/
theorem replay_literal {v : Nat} (hv : v < 256) (hrest : rest ≠ []) :
    replay c (literalToken v :: rest) out = replay c rest (out ++ [v]) := by
  obtain ⟨u, rest, rfl⟩ := List.exists_cons_of_ne_nil hrest
  exact (if_pos hv).trans (if_pos ⟨rfl, rfl⟩)

theorem EncodedBy.xbits_le {rows : List BucketRow} {v k : Nat} {t : Token} (h : EncodedBy rows v t)
    (hrows : ∀ r ∈ rows, r.extra ≤ k) : t.xbits ≤ k := by
  obtain ⟨r, hmem, -, -, rfl⟩ := h
  exact hrows r hmem

/-- A length and a distance within R223's bounds replay as the copy (R216, R223). -/
theorem replay_match {l d : Nat} (hc : c.firstBad = none) (hmin : c.minMatch ≤ l) (hmax : l ≤ c.maxMatch) (hd : 1 ≤ d)
    (hd' : d ≤ min c.window out.length) :
    replay c (lengthToCode l :: distanceToCode d :: rest) out = replay c rest (copyOut d l out) := by
  obtain ⟨-, hwindow, -, hlmax, hlmin, -⟩ := (LzConfig.firstBad_eq_none_iff c).1 hc
  have hlen := lengthToCode_encodedBy (hlmin.trans hmin) (hmax.trans hlmax)
  have hdist := distanceToCode_encodedBy hd (by omega)
  obtain ⟨hlx, lb, hlb, hl⟩ := hlen.roundTrip lengthCodes_nodup
  obtain ⟨hdx, db, hdb, hdeq⟩ := hdist.roundTrip distanceCodes_nodup
  rw [← codeToLengthBase_eq] at hlb
  rw [← codeToDistanceBase_eq] at hdb
  have hsym : ¬(lengthToCode l).sym < 256 := fun h => by
    rw [(codeToLengthBase_eq_none_iff _).2 (.inl (by omega))] at hlb
    cases hlb
  have hle : (lengthToCode l).xbits ≤ 14 := hlen.xbits_le (by decide)
  have hde : (distanceToCode d).xbits ≤ 14 := hdist.xbits_le (by decide)
  simp only [replay, if_neg hsym, hlb, hdb, hl, hdeq]
  exact if_pos ⟨trivial, hlx, hle, trivial, hdx, hde, hmin, hmax, hd, hd'⟩

theorem map_range_append (b : Nat → Nat) (p : Nat) :
    (List.range p).map b ++ [b p] = (List.range (p + 1)).map b := by
  rw [List.range_succ, List.map_append, List.map_singleton]

/-- Copying from where the bytes to come already stand continues the output (R216, R298). -/
theorem copyOut_range {b : Nat → Nat} {p d l : Nat} (hd : 1 ≤ d) (hd' : d ≤ p) (h : ∀ i, i < l → b (p - d + i) = b (p + i)) :
    copyOut d l ((List.range p).map b) = (List.range (p + l)).map b := by
  induction l generalizing p with
  | zero => rfl
  | succ l ih =>
    have hbyte : ((List.range p).map b).getD (((List.range p).map b).length - d) 0 = b p := by
      have h0 := h 0 (Nat.succ_pos l)
      rw [List.length_map, List.length_range, List.getD_eq_getElem?_getD, List.getElem?_map,
        List.getElem?_range (by omega)]
      simpa using h0
    rw [copyOut, hbyte, map_range_append, ih (by omega) fun i hi => ?_, Nat.add_right_comm, Nat.add_assoc]
    have := h (i + 1) (Nat.succ_lt_succ hi)
    rwa [show p + 1 - d + i = p - d + (i + 1) by omega, Nat.add_right_comm p]

end

/-- Replayed after the bytes before `p`, the stream from `p` rebuilds the rest of the input (R223). -/
theorem replay_tokensFrom {c : LzConfig} {b : Nat → Nat} {n p : Nat} (hc : c.firstBad = none) (hb : ∀ i, b i < 256)
    (hp : p ≤ n) : replay c (tokensFrom c b n p) ((List.range p).map b) = some ((List.range n).map b) := by
  obtain ⟨-, -, -, -, hmin, -⟩ := (LzConfig.firstBad_eq_none_iff c).1 hc
  induction hk : n - p using Nat.strong_induction_on generalizing p with
  | _ k ih =>
    rcases hp.lt_or_eq with hlt | rfl
    · rw [tokensFrom_of_lt hmin hlt]
      split
      · rename_i ht
        obtain ⟨-, hpos⟩ := le_of_takesMatch hmin ht
        obtain ⟨hlen, hdist, hdist', hagree⟩ := isMatch_findMatch (Nat.zero_lt_of_lt hpos)
        rw [replay_match hc (takesMatch_iff.1 ht).1 (hlen.trans (min_le_left _ _)) hdist (by simpa using hdist'),
          copyOut_range hdist (by omega) hagree]
        exact ih _ (by omega) (by omega) rfl
      · rw [replay_literal (hb p) tokensFrom_ne_nil, map_range_append]
        exact ih _ (by omega) hlt rfl
    · rw [tokensFrom_of_ge le_rfl, replay_eos]

/-- Settles O32: the stream from position 0, replayed over no output. -/
theorem tokenStreamRebuildsInput : Obligations.TokenStreamRebuildsInput := fun _ _ n hc hb =>
  replay_tokensFrom hc hb n.zero_le

end Sys2Proof.Machine
end

section
/-! LZ_MATCH, case by case (R211, R213), the bound on its tokens (R222), and what they depend on (R224). -/

namespace Sys2Proof.Machine

/-! ## The command -/

/-- The checks of R33 in R211's order. -/
theorem LzConfig.firstBad_eq (c : LzConfig) : c.firstBad =
    if ¬(1 ≤ c.window ∧ c.window ≤ 65536) then some (0x80, c.window)
    else if ¬(3 ≤ c.maxMatch ∧ c.maxMatch ≤ 258) then some (0x90, c.maxMatch)
    else if ¬(3 ≤ c.minMatch ∧ c.minMatch ≤ c.maxMatch) then some (0x88, c.minMatch)
    else if ¬(1 ≤ c.maxChain ∧ c.maxChain ≤ 65536) then some (0x98, c.maxChain)
    else if ¬(1 ≤ c.lazyDiv ∧ c.lazyDiv ≤ 65536) then some (0xA0, c.lazyDiv)
    else none := by
  simp only [LzConfig.firstBad, windowOk, Bool.not_eq_true', Bool.and_eq_false_iff, decide_eq_false_iff_not,
    Classical.not_and_iff_not_or_not]

section
variable {s : State}

/-- An n beyond SRC comes first (R211). -/
theorem exec_lzMatch_of_long (h : s.params.srcSize < s.arg0) :
    exec .lzMatch s = .next (s.raise .badArgument 0 s.arg0) := by
  rcases lzMatch_cases s.arg0 s with ⟨-, heq⟩ | ⟨hle, -⟩ | ⟨hle, -⟩
  · rw [exec, execLzMatch, heq, Res.bind_raised, Res.finish_raised]
  · omega
  · omega

/-- Then the first bad configuration register (R211). -/
theorem exec_lzMatch_of_bad {off v : Nat} (h : s.arg0 ≤ s.params.srcSize) (hbad : s.lzConfig.firstBad = some (off, v)) :
    exec .lzMatch s = .next (s.raise .badArgument off v) := by
  rcases lzMatch_cases s.arg0 s with ⟨hlt, -⟩ | ⟨-, off', v', hbad', heq⟩ | ⟨-, hok, -⟩
  · omega
  · cases hbad.symm.trans hbad'
    rw [exec, execLzMatch, heq, Res.bind_raised, Res.finish_raised]
  · cases hbad.symm.trans hok

/-- With a legal configuration LZ_MATCH writes its tokens, and their number to TOK_COUNT and RES0 (R213). -/
theorem exec_lzMatch_of_legal (h : s.arg0 ≤ s.params.srcSize) (hok : s.lzConfig.firstBad = none) :
    exec .lzMatch s = .next (State.afterDone
      { s with tok := s.tok.put 0 ((lzTokens s.lzConfig s.input s.arg0).map Token.toWord)
               tokCount := Word.ofNat (lzTokens s.lzConfig s.input s.arg0).length }
      { s.res with r0 := Word.ofNat (lzTokens s.lzConfig s.input s.arg0).length }) := by
  rcases lzMatch_cases s.arg0 s with ⟨hlt, -⟩ | ⟨-, off', v', hbad', -⟩ | ⟨-, -, heq⟩
  · omega
  · cases hok.symm.trans hbad'
  · rw [exec, execLzMatch, heq, Res.bind_ok, Res.finish_ok]
    rfl

end

/-- Settles O31: every pass of the scan emits no more tokens than it consumes bytes. -/
theorem tokenCountBound : Obligations.TokenCountBound := fun _ b n _ hc =>
  ⟨lzTokens_length_le hc b n, fun hn => (lzTokens_length_le hc b n).trans (Nat.succ_le_succ hn)⟩

/-- The words of a token list stand in TOK from element 0 on. -/
theorem State.tokAt_of_put (s : State) (toks : List Token) {j : Nat} {x : Token} (h : toks[j]? = some x) :
    ({ s with tok := s.tok.put 0 (toks.map Token.toWord) } : State).tokAt j = x.toWord := by
  obtain ⟨hj, hx⟩ := List.getElem?_eq_some_iff.1 h
  refine (State.tokAt_putTok s 0 _ j).trans ?_
  rw [if_pos ⟨j.zero_le, by simpa using hj⟩]
  simp [List.getD_eq_getElem?_getD, h]

theorem State.tokAt_of_put_beyond (s : State) (toks : List Token) {j : Nat} (h : toks.length ≤ j) :
    ({ s with tok := s.tok.put 0 (toks.map Token.toWord) } : State).tokAt j = s.tokAt j := by
  refine (State.tokAt_putTok s 0 _ j).trans (if_neg ?_)
  rw [List.length_map]
  omega

/-- Settles O29: tokensFrom is the scan the statement asks for, and each check of R211 raises in its turn. -/
theorem lzMatchCompletes : Obligations.LzMatchCompletes := by
  intro s n window minMatch maxMatch maxChain lazyDiv okWindow okMax okMin okChain okLazy
  refine ⟨rfl, fun hn hw hmax hmin hchain hlazy => ?_, exec_lzMatch_of_long, fun hn => ⟨fun h => ?_, fun h h1 => ?_,
    fun h h1 h2 => ?_, fun h h1 h2 h3 => ?_, fun h h1 h2 h3 h4 => ?_⟩⟩
  · have hok : s.lzConfig.firstBad = none := (LzConfig.firstBad_eq_none_iff _).2
      ⟨hw.1, hw.2, hmax.1, hmax.2, hmin.1, hmin.2, hchain.1, hchain.2, hlazy.1, hlazy.2⟩
    refine ⟨_, tokensFrom s.lzConfig s.input n, exec_lzMatch_of_legal hn hok, fun j x => s.tokAt_of_put _,
      fun j => s.tokAt_of_put_beyond _, rfl, fun p => tokensFrom_of_ge, fun p hp => ?_⟩
    refine (tokensFrom_of_lt hmin.1 hp).trans ?_
    simp only [takesMatch_iff]
    rfl
  all_goals refine exec_lzMatch_of_bad hn ((LzConfig.firstBad_eq _).trans ?_)
  · exact if_pos h
  · exact (if_neg (not_not.2 h)).trans (if_pos h1)
  · exact (if_neg (not_not.2 h)).trans <| (if_neg (not_not.2 h1)).trans (if_pos h2)
  · exact (if_neg (not_not.2 h)).trans <| (if_neg (not_not.2 h1)).trans <| (if_neg (not_not.2 h2)).trans (if_pos h3)
  · exact (if_neg (not_not.2 h)).trans <| (if_neg (not_not.2 h1)).trans <| (if_neg (not_not.2 h2)).trans <|
      (if_neg (not_not.2 h3)).trans (if_pos h4)

/-! ## What the tokens depend on -/

section
variable {c : LzConfig} {b b' : Nat → Nat} {n : Nat} (hb : ∀ i, i < n → b i = b' i)
include hb

/-- The hash reads three bytes (R212). -/
theorem lzHash_congr {p : Nat} (h : p + 3 ≤ n) : lzHash b p = lzHash b' p := by
  rw [lzHash, lzHash, hb p (by omega), hb (p + 1) (by omega), hb (p + 2) (by omega)]

/-- The chain reads the hashes up to `p` (R214, R215). -/
theorem lzChain_congr {p : Nat} (h : p + 3 ≤ n) : lzChain c b p = lzChain c b' p := by
  have hfilter : ∀ q ∈ (List.range (min p c.window)).map (fun k => p - 1 - k),
      (lzHash b q == lzHash b p) = (lzHash b' q == lzHash b' p) := by
    intro q hq
    obtain ⟨k, hk, rfl⟩ := List.mem_map.1 hq
    have := List.mem_range.1 hk
    rw [lzHash_congr hb h, lzHash_congr hb (by omega)]
  rw [lzChain, lzChain, List.filter_congr hfilter]

/-- A match from a position before `p` reads the bytes before `p + limit` (R216). -/
theorem matchLen_congr {q p limit : Nat} (hq : q ≤ p) (h : p + limit ≤ n) :
    matchLen b q p limit = matchLen b' q p limit := by
  induction limit generalizing q p with
  | zero => rfl
  | succ limit ih =>
    rw [matchLen, matchLen, hb q (by omega), hb p (by omega), ih (Nat.succ_le_succ hq) (by omega)]

theorem bestOf_congr {p limit : Nat} {qs : List Nat} (hqs : ∀ q ∈ qs, q ≤ p) (h : p + limit ≤ n) (best : Nat × Nat) :
    bestOf b p limit qs best = bestOf b' p limit qs best := by
  induction qs generalizing best with
  | nil => rfl
  | cons q qs ih =>
    obtain ⟨hq, hqs⟩ := List.forall_mem_cons.1 hqs
    simp only [bestOf, matchLen_congr hb hq h, ih hqs]

/-- A search reads the input alone (R217). -/
theorem findMatch_congr (p : Nat) : findMatch c b n p = findMatch c b' n p := by
  rcases Nat.lt_or_ge n (p + 3) with hshort | hlong
  · rw [findMatch_of_short hshort, findMatch_of_short hshort]
  · rw [findMatch, findMatch, lzChain_congr hb hlong,
      bestOf_congr hb (fun q hq => (lt_of_mem_lzChain hq).1.le) (by omega)]

theorem takesMatch_congr (p : Nat) (m : Nat × Nat) : takesMatch c b n p m = takesMatch c b' n p m := by
  rw [takesMatch, takesMatch, findMatch_congr hb]

/-- The token stream is a function of the input bytes and the configuration (R224). -/
theorem lzTokens_congr : lzTokens c b n = lzTokens c b' n := by
  have hscan (fuel p : Nat) : lzScan c b n fuel p = lzScan c b' n fuel p := by
    induction fuel generalizing p with
    | zero => rfl
    | succ fuel ih =>
      rw [lzScan, lzScan]
      by_cases hp : p < n
      · simp only [if_pos hp, findMatch_congr hb p, takesMatch_congr hb, hb p hp, ih]
      · rw [if_neg hp, if_neg hp]
  rw [lzTokens, lzTokens, hscan]

end

/-- Settles O34: both runs write the words of one token stream. -/
theorem matcherDeterminism : Obligations.MatcherDeterminism := by
  intro s s' t t' harg hcfg hok hn hn' _ _ hsrc h h'
  have hconfig : s'.lzConfig = s.lzConfig := by rw [State.lzConfig, State.lzConfig, hcfg]
  have harg' : s'.arg0 = s.arg0 := congrArg BitVec.toNat harg.symm
  have htoks : lzTokens s'.lzConfig s'.input s'.arg0 = lzTokens s.lzConfig s.input s.arg0 := by
    rw [hconfig, harg']
    exact lzTokens_congr fun i hi => congrArg BitVec.toNat (hsrc i hi).symm
  rw [exec_lzMatch_of_legal hn hok] at h
  rw [exec_lzMatch_of_legal (harg'.trans_le hn') (hconfig ▸ hok), htoks] at h'
  cases h
  cases h'
  refine ⟨rfl, rfl, fun j hj => ?_⟩
  have hlt : j < (lzTokens s.lzConfig s.input s.arg0).length :=
    hj.trans_le ((BitVec.toNat_ofNat _ _).trans_le (Nat.mod_le _ _))
  have hx := List.getElem?_eq_getElem hlt
  exact (s.tokAt_of_put _ hx).trans (s'.tokAt_of_put _ hx).symm

end Sys2Proof.Machine
end

section
/-! The hash index of R48: HEAD is the latest position with a hash, PREV links a position to the one before it, so the walk is
the chain (R214, R215, R221). -/

namespace Sys2Proof.Machine

/-! ## What the index holds -/

/-- The latest position before `s` whose hash is `h`. -/
def latest (b : Nat → Nat) (h : Nat) : Nat → Option Nat
  | 0 => none
  | s + 1 => if h = lzHash b s then some s else latest b h s

theorem HashIndex.upTo_succ (w : Nat) (b : Nat → Nat) (s : Nat) :
    HashIndex.upTo w b (s + 1) = HashIndex.insert w b (HashIndex.upTo w b s) s := by
  rw [HashIndex.upTo, List.range_succ, List.foldl_append]
  rfl

/-- HEAD[h] is the latest position with hash h (R48, R221). -/
theorem HashIndex.upTo_head (w : Nat) (b : Nat → Nat) (s h : Nat) : (HashIndex.upTo w b s).head h = latest b h s := by
  induction s with
  | zero => rfl
  | succ s ih =>
    rw [HashIndex.upTo_succ, latest, ← ih]
    rfl

/-- Two positions less than W apart have different places in PREV (R48). -/
theorem mod_ne_of_near {w q s : Nat} (hq : q < s) (hnear : s - q < w) : q % w ≠ s % w := fun h =>
  absurd (Nat.eq_zero_of_dvd_of_lt ((Nat.modEq_iff_dvd' hq.le).1 h) hnear) (Nat.sub_ne_zero_of_lt hq)

/-- For a position in the window PREV still holds the latest one before it with its hash (R48, R221). -/
theorem HashIndex.upTo_prev {w : Nat} {b : Nat → Nat} {s q : Nat} (hq : q < s) (hwindow : s - q ≤ w) :
    (HashIndex.upTo w b s).prev (q % w) = latest b (lzHash b q) q := by
  induction s with
  | zero => cases hq
  | succ s ih =>
    rw [HashIndex.upTo_succ]
    rcases Nat.lt_succ_iff_lt_or_eq.1 hq with hlt | rfl
    · exact (if_neg (mod_ne_of_near hlt (by omega))).trans (ih hlt (by omega))
    · exact (if_pos rfl).trans (HashIndex.upTo_head w b q _)

/-! ## The walk -/

/-- The positions before `p` that are in the window of `s`, latest first. -/
def windowBefore (w s p : Nat) : List Nat := (List.range (p - (s - w))).map fun k => p - 1 - k

theorem windowBefore_of_le {w s p : Nat} (h : p ≤ s - w) : windowBefore w s p = [] := by
  rw [windowBefore, Nat.sub_eq_zero_of_le h]
  rfl

theorem windowBefore_succ {w s p : Nat} (h : s - w ≤ p) : windowBefore w s (p + 1) = p :: windowBefore w s p := by
  rw [windowBefore, Nat.succ_sub h, List.range_succ_eq_map, List.map_cons, List.map_map]
  refine congrArg (List.cons p) (List.map_congr_left fun k _ => ?_)
  simp only [Function.comp_apply]
  omega

theorem lzChain_eq_windowBefore (c : LzConfig) (b : Nat → Nat) (s : Nat) :
    lzChain c b s = ((windowBefore c.window s s).filter (lzHash b · == lzHash b s)).take c.maxChain := by
  rw [windowBefore, show s - (s - c.window) = min s c.window by omega]
  rfl

/-- From the latest position before `p`, the walk visits those of the window with the hash, up to its budget (R221). -/
theorem HashIndex.walk_latest {w : Nat} {b : Nat → Nat} {s p h : Nat} (hp : p ≤ s) (budget : Nat) :
    (HashIndex.upTo w b s).walk w s budget (latest b h p) =
      ((windowBefore w s p).filter (lzHash b · == h)).take budget := by
  induction p generalizing budget with
  | zero =>
    rw [latest, windowBefore_of_le (Nat.zero_le _)]
    cases budget <;> rfl
  | succ p ih =>
    have hlt : p < s := hp
    rw [latest]
    by_cases hh : h = lzHash b p
    · subst hh
      cases budget with
      | zero => rfl
      | succ budget =>
        rw [if_pos rfl, HashIndex.walk]
        split
        · rename_i hnear
          rw [HashIndex.upTo_prev hlt hnear, ih hlt.le, windowBefore_succ (by omega), List.filter_cons,
            if_pos (beq_self_eq_true _), List.take_succ_cons]
        · rw [windowBefore_of_le (by omega)]
          rfl
    · rw [if_neg hh, ih hlt.le]
      rcases Nat.lt_or_ge p (s - w) with hfar | hnear
      · rw [windowBefore_of_le hfar, windowBefore_of_le hfar.le]
      · rw [windowBefore_succ hnear, List.filter_cons_of_neg (by simpa using Ne.symm hh)]

/-- Settles O33: the walk starts at the latest position with the hash of `s`. -/
theorem hashIndexYieldsChain : Obligations.HashIndexYieldsChain := by
  intro c b s _
  rw [HashIndex.candidates, HashIndex.upTo_head, HashIndex.walk_latest le_rfl, lzChain_eq_windowBefore]

end Sys2Proof.Machine
end

section
/-! Which elements of TOK, FREQ, CODE and NODE an instruction stores (R213, R240, R242 to R244, R271, R290, R294). -/

namespace Sys2Proof.Machine

variable {α β : Type}

/-! ## Rules by value and by error -/

/-- As Res.Gives, but an error's name and symbol value count too: a rule that ends well has Q, one that raises has E. -/
inductive Res.Answers (Q : α → State → Prop) (E : EngineError → Nat → State → Prop) : Res α → Prop
  | ok {a : α} {s : State} (h : Q a s) : Answers Q E (.ok a s)
  | raised {e : EngineError} {pos sym : Nat} {s : State} (h : E e sym s) : Answers Q E (.raised e pos sym s)
  | stuck {f : Fault} : Answers Q E (.stuck f)

section
variable {Q Q' : α → State → Prop} {E E' : EngineError → Nat → State → Prop} {P R : State → Prop} {r r' : Res α}

theorem Res.Answers.bind {Q' : β → State → Prop} {k : α → State → Res β} (hr : r.Answers Q E)
    (hk : ∀ a s, Q a s → (k a s).Answers Q' E) : (r.bind k).Answers Q' E := by
  cases hr with
  | ok h => exact hk _ _ h
  | raised h => exact .raised h
  | stuck => exact .stuck

theorem Res.Answers.mono (hr : r.Answers Q E) (hQ : ∀ a s, Q a s → Q' a s) (hE : ∀ e sym s, E e sym s → E' e sym s) :
    r.Answers Q' E' := by
  cases hr with
  | ok h => exact .ok (hQ _ _ h)
  | raised h => exact .raised (hE _ _ _ h)
  | stuck => exact .stuck

theorem Res.Answers.ite {c : Prop} [Decidable c] (h : c → r.Answers Q E) (h' : ¬c → r'.Answers Q E) :
    (if c then r else r').Answers Q E := by
  split
  · exact h ‹_›
  · exact h' ‹_›

theorem Res.Answers.atOutLen (hr : r.Answers Q E) : r.atOutLen.Answers Q E := by
  cases hr with
  | ok h => exact .ok h
  | raised h => exact .raised h
  | stuck => exact .stuck

theorem Res.Answers.all (hr : r.Answers Q E) (hQ : ∀ a s, Q a s → P s) (hE : ∀ e sym s, E e sym s → P s) : r.All P := by
  cases hr with
  | ok h => exact .of_ok rfl (hQ _ _ h)
  | raised h => exact .of_raised rfl (hE _ _ _ h)
  | stuck => exact .of_stuck rfl

/-- A command that answers a next state has completed, with Q, or raised, with E (R143, R321). -/
theorem Res.Answers.finish {t : State} {f : α → State → Results} (hr : r.Answers Q E)
    (h : (r.bind fun a u => .ok (f a u) u).finish = .next t) (hdone : ∀ a u, Q a u → R (u.complete (f a u)))
    (hraise : ∀ e pos sym u, E e sym u → R (u.raise e pos sym)) : R t := by
  cases hr with
  | ok hq => cases h; exact hdone _ _ hq
  | raised he => cases h; exact hraise _ _ _ _ he
  | stuck => cases h

theorem Res.Answers.goOn {r : Res Unit} {Q : Unit → State → Prop} {t : State} (hr : r.Answers Q E) (h : r.goOn = .next t)
    (hok : ∀ u, Q () u → R u) (hraise : ∀ e pos sym u, E e sym u → R (u.raise e pos sym)) : R t := by
  cases hr with
  | ok hq => cases h; exact hok _ hq
  | raised he => cases h; exact hraise _ _ _ _ he
  | stuck => cases h

end

/-! ## Elements that stay -/

/-- The parameters are those of `s`, and TOK, FREQ, CODE and NODE read as in `s` from these indices on. -/
structure State.SameBeyond (tok freq code node : Nat) (s t : State) : Prop where
  params : t.params = s.params
  tokAt : ∀ j, tok ≤ j → t.tokAt j = s.tokAt j
  freqAt : ∀ j, freq ≤ j → t.freqAt j = s.freqAt j
  codeAt : ∀ j, code ≤ j → t.codeAt j = s.codeAt j
  nodeAt : ∀ j, node ≤ j → t.nodeAt j = s.nodeAt j

section
variable {k l m n k' l' m' n' : Nat} {s t u : State}

theorem State.SameBeyond.refl (s : State) : s.SameBeyond k l m n s :=
  ⟨rfl, fun _ _ => rfl, fun _ _ => rfl, fun _ _ => rfl, fun _ _ => rfl⟩

theorem State.SameBeyond.trans (h : s.SameBeyond k l m n t) (h' : t.SameBeyond k l m n u) : s.SameBeyond k l m n u where
  params := h'.params.trans h.params
  tokAt j hj := (h'.tokAt j hj).trans (h.tokAt j hj)
  freqAt j hj := (h'.freqAt j hj).trans (h.freqAt j hj)
  codeAt j hj := (h'.codeAt j hj).trans (h.codeAt j hj)
  nodeAt j hj := (h'.nodeAt j hj).trans (h.nodeAt j hj)

theorem State.SameBeyond.mono (h : s.SameBeyond k l m n t) (hk : k ≤ k') (hl : l ≤ l') (hm : m ≤ m') (hn : n ≤ n') :
    s.SameBeyond k' l' m' n' t where
  params := h.params
  tokAt j hj := h.tokAt j (hk.trans hj)
  freqAt j hj := h.freqAt j (hl.trans hj)
  codeAt j hj := h.codeAt j (hm.trans hj)
  nodeAt j hj := h.nodeAt j (hn.trans hj)

end

/-! ## LZ_MATCH, FREQ_COUNT and HUFF_CODES -/

/-- LZ_MATCH stores its TOK_COUNT tokens, at most n + 1, or raises and stores nothing (R213, R222). -/
theorem lzMatch_stores (n : Nat) {s : State} (hp : s.params.legal) : (lzMatch n s).Answers
    (fun _ t => t.tokCount.toNat ≤ n + 1 ∧ s.SameBeyond t.tokCount.toNat 0 0 0 t) fun _ _ t => t = s := by
  rcases lzMatch_cases n s with ⟨-, h⟩ | ⟨-, off, v, -, h⟩ | ⟨hn, hc, h⟩
  · rw [h]; exact .raised rfl
  · rw [h]; exact .raised rfl
  · have hlen := lzTokens_length_le hc s.input n
    have hsrc := hp.2.1
    have hcount : (Word.ofNat (lzTokens s.lzConfig s.input n).length).toNat = (lzTokens s.lzConfig s.input n).length :=
      Word.toNat_ofNat_of_lt (by omega)
    rw [h]
    exact .ok ⟨hcount.trans_le hlen, rfl, fun j hj => s.tokAt_of_put_beyond _ (hcount.symm.trans_le hj), fun _ _ => rfl,
      fun _ _ => rfl, fun _ _ => rfl⟩

/-- FREQ_COUNT stores its 512 counts, or raises and stores nothing (R240). -/
theorem freqCount_stores (s : State) : (freqCount s).Answers (fun _ t => s.SameBeyond 0 512 0 0 t) fun _ _ t => t = s := by
  rcases freqCount_cases s with ⟨f, hf, h⟩ | ⟨e, i, sym, -, h⟩
  · have hlen : f.length = 512 := by rw [countSymbols_length hf, List.length_replicate]; rfl
    rw [h]
    refine .ok ⟨rfl, fun _ _ => rfl, fun j hj => ?_, fun _ _ => rfl, fun _ _ => rfl⟩
    rw [State.freqAt_putFreq, if_neg (by rw [List.length_map]; omega)]
  · rw [h]; exact .raised rfl

/-- HUFF_CODES stores its 512 entries, or raises and stores nothing (R244). -/
theorem huffCodes_stores (s : State) : (huffCodes s).Answers (fun _ t => s.SameBeyond 0 0 512 0 t) fun _ _ t => t = s := by
  unfold huffCodes withTree
  split
  · exact .raised rfl
  · split
    · exact .stuck
    · dsimp only
      split
      · exact .raised rfl
      · refine .ok ⟨rfl, fun _ _ => rfl, fun _ _ => rfl, fun j hj => ?_, fun _ _ => rfl⟩
        rw [State.codeAt_putCode, if_neg (by simp [Config.symbols]; omega)]

/-! ## HUFF_BUILD -/

/-- The merges store from `nx` on, one node each (R242). -/
theorem huffMerge_get? {fuel nx j : Nat} {q : List QueueNode} {node : Mem 64} (hj : nx + fuel ≤ j) :
    (huffMerge fuel q nx node).2.get? j = node.get? j := by
  induction fuel generalizing q nx node with
  | zero => rfl
  | succ fuel ih =>
    rw [huffMerge]
    split
    · rfl
    · split
      · rfl
      · refine (ih (by omega)).trans (Mem.get?_put_of_outside _ _ _ _ (.inr ?_))
        rw [List.length_singleton]
        omega

/-- HUFF_BUILD stores its TREE_NODES nodes, at most 635, or raises and stores nothing (R242, R243). -/
theorem huffBuild_stores (s : State) : (huffBuild s).Answers
    (fun _ t => t.tree.nodes.toNat ≤ 635 ∧ s.SameBeyond 0 0 0 t.tree.nodes.toNat t)
    fun _ _ t => s.SameBeyond 0 0 0 0 t := by
  rcases huffBuild_gives s with ⟨e, sym, h⟩ | ⟨syms, hsyms, hk, h⟩
  · rw [h]
    exact .raised ⟨rfl, fun _ _ => rfl, fun _ _ => rfl, fun _ _ => rfl, fun _ _ => rfl⟩
  · have hle : syms.length ≤ 318 := hsyms ▸ usedSymbols_length_le s.freqNat
    have hnodes : (Word.ofNat (2 * syms.length - 1)).toNat = 2 * syms.length - 1 := Word.toNat_ofNat_of_lt (by omega)
    rw [h]
    refine .ok ⟨hnodes.trans_le (by omega), rfl, fun _ _ => rfl, fun _ _ => rfl, fun _ _ => rfl, fun j hj => ?_⟩
    have hj' : 2 * syms.length - 1 ≤ j := hnodes.symm.trans_le hj
    refine congrArg (Option.getD · _) ((huffMerge_get? (by omega)).trans (Mem.get?_put_of_outside _ _ _ _ (.inr ?_)))
    rw [List.length_map]
    omega

/-! ## HUFF_DESERIALIZE and DECOMPRESS -/

/-- From `s` to `t` des() has gone from `cnt` to `k` allocated nodes, and stored no node from `k` on (R271). -/
structure State.Allocates (cnt k : Nat) (s t : State) : Prop where
  le : cnt ≤ k
  cap : k ≤ s.params.nodeCap
  same : s.SameBeyond 0 0 0 k t

/-- des() raises MalformedTree with the number of nodes allocated (R271). -/
def State.BreaksOff (cnt : Nat) (s : State) (e : EngineError) (sym : Nat) (t : State) : Prop :=
  e = .malformedTree ∧ s.Allocates cnt sym t

section
variable {cnt k l : Nat} {s t u : State}

theorem State.Allocates.trans (h : s.Allocates cnt k t) (h' : t.Allocates k l u) : s.Allocates cnt l u where
  le := h.le.trans h'.le
  cap := h.same.params ▸ h'.cap
  same := (h.same.mono le_rfl le_rfl le_rfl h'.le).trans h'.same

theorem State.Allocates.grow (h : s.Allocates cnt k t) (hk : k ≤ l) (hcap : l ≤ s.params.nodeCap) : s.Allocates cnt l t :=
  ⟨h.le.trans hk, hcap, h.same.mono le_rfl le_rfl le_rfl hk⟩

theorem State.Allocates.le_nodeCap (h : s.Allocates cnt k t) : k ≤ t.params.nodeCap := h.same.params ▸ h.cap

theorem State.Allocates.putNode (h : s.Allocates cnt k t) {i : Nat} (hi : i < k) (v : Word) :
    s.Allocates cnt k (t.putNode i [v]) where
  le := h.le
  cap := h.cap
  same := { h.same with
    nodeAt := fun j hj => by rw [State.nodeAt_putNode_singleton, if_neg (by omega), h.same.nodeAt j hj] }

/-- What des() does after `s.Allocates cnt k t`, it does from `s` on. -/
theorem Res.Answers.allocates_trans {r : Res α} {f : α → Nat} (h : s.Allocates cnt k t)
    (hr : r.Answers (fun a => t.Allocates k (f a)) (t.BreaksOff k)) :
    r.Answers (fun a => s.Allocates cnt (f a)) (s.BreaksOff cnt) :=
  hr.mono (fun _ _ => h.trans) fun _ _ _ ⟨he, ht⟩ => ⟨he, h.trans ht⟩

/-- What des() does from the next node on. -/
theorem Res.Answers.of_allocates_succ {r : Res α} {f : α → Nat}
    (hr : r.Answers (fun a => s.Allocates (cnt + 1) (f a)) (s.BreaksOff (cnt + 1))) :
    r.Answers (fun a => s.Allocates cnt (f a)) (s.BreaksOff cnt) :=
  have hle {k : Nat} {t : State} (h : s.Allocates (cnt + 1) k t) : s.Allocates cnt k t :=
    { h with le := (Nat.le_succ cnt).trans h.le }
  hr.mono (fun _ _ => hle) fun _ _ _ ⟨he, ht⟩ => ⟨he, hle ht⟩

/-- A read of des() changes BR_*, or breaks the tree off at the node it is for (R271). -/
theorem readBits_allocates (n pos : Nat) (h : cnt < s.params.nodeCap) :
    ((readBits n s).raiseAs .malformedTree pos (cnt + 1)).Answers (fun _ => s.Allocates cnt cnt) (s.BreaksOff cnt) := by
  have hsame (br : BitReader) : s.Allocates cnt cnt { s with br := br } :=
    ⟨le_rfl, h.le, rfl, fun _ _ => rfl, fun _ _ => rfl, fun _ _ => rfl, fun _ _ => rfl⟩
  rcases readBits_cases n s with ⟨v, br, hr⟩ | hr
  · rw [hr]; exact .ok (hsame br)
  · rw [hr]; exact .raised ⟨rfl, (hsame s.br).grow (Nat.le_succ cnt) h⟩

/-- des() stores the nodes it allocates (R271). -/
theorem des_allocates (depth : Nat) (h : cnt ≤ s.params.nodeCap) :
    (des depth cnt s).Answers (fun b => s.Allocates cnt b.cnt) (s.BreaksOff cnt) := by
  induction depth generalizing cnt s with
  | zero => exact .raised ⟨rfl, le_rfl, h, .refl s⟩
  | succ depth ih =>
    unfold des
    split
    · exact .raised ⟨rfl, le_rfl, h, .refl s⟩
    · have hlt : cnt < s.params.nodeCap := by omega
      refine (readBits_allocates 1 s.br.pos.toNat hlt).bind fun tag s1 h1 => ?_
      split
      · refine (Res.Answers.allocates_trans h1
          (readBits_allocates Config.leafBits s1.br.pos.toNat (h1.same.params ▸ hlt))).bind fun sym s2 h2 => ?_
        exact .ok ((h2.grow (Nat.le_succ cnt) hlt).putNode (Nat.lt_succ_self cnt) _)
      · have h1' : s.Allocates (cnt + 1) (cnt + 1) s1 := ⟨le_rfl, hlt, h1.same.mono le_rfl le_rfl le_rfl (Nat.le_succ cnt)⟩
        refine .of_allocates_succ ((Res.Answers.allocates_trans h1' (ih h1'.le_nodeCap)).bind fun l s2 h2 => ?_)
        refine (Res.Answers.allocates_trans h2 (ih h2.le_nodeCap)).bind fun r s3 h3 => ?_
        exact .ok (h3.putNode h3.le _)

end

/-- HUFF_DESERIALIZE stores its TREE_NODES nodes, or raises MalformedTree with the number it has stored (R271). -/
theorem huffDeserialize_stores {s : State} (hp : s.params.legal) : (huffDeserialize s).Answers
    (fun _ t => s.SameBeyond 0 0 0 t.tree.nodes.toNat t)
    fun e sym t => e = .malformedTree ∧ s.SameBeyond 0 0 0 (Word.ofNat sym).toNat t := by
  have hcap := hp.2.2.2.2.2
  have hword {k : Nat} (hk : k ≤ s.params.nodeCap) : (Word.ofNat k).toNat = k := Word.toNat_ofNat_of_lt (by omega)
  have hdes := des_allocates (cnt := 0) (s := { s with tree := { s.tree with valid := false } }) (s.params.nodeCap + 1)
    (Nat.zero_le _)
  refine Res.Answers.bind (hdes.mono (fun _ _ h => h) fun e sym t ⟨he, h⟩ => ⟨he, ?_⟩) fun b t h => ?_
  · rw [hword h.cap]
    exact { h.same with }
  · exact .ok { h.same with nodeAt := fun j hj => h.same.nodeAt j ((hword h.cap).symm.trans_le hj) }

/-- DECOMPRESS stores the nodes of its tree, or raises MalformedTree with the number it has stored, or raises before it
stores (R294, R295). -/
theorem decompress_stores (m : Nat) {s : State} (hp : s.params.legal) : (decompress m s).Answers
    (fun _ t => t.phase = .decoding ∧ s.SameBeyond 0 0 0 t.tree.nodes.toNat t)
    fun e sym t => s.SameBeyond 0 0 0 (if e = .malformedTree then (Word.ofNat sym).toNat else 0) t := by
  have hraise (k : Nat) : s.SameBeyond 0 0 0 k { s with outLen := 0 } :=
    ⟨rfl, fun _ _ => rfl, fun _ _ => rfl, fun _ _ => rfl, fun _ _ => rfl⟩
  have hinit : (brInit 9 m { s with outLen := 0 }).Answers
      (fun _ t => ∃ br, t = { s with outLen := 0, br := br }) fun _ _ t => t = { s with outLen := 0 } :=
    .ite (fun _ => .raised rfl) fun _ => .ok ⟨_, rfl⟩
  refine .ite (fun _ => .raised (hraise _)) fun _ => .ite (fun _ => .raised (hraise _)) fun _ => .ite (fun _ => .raised (hraise _)) fun _ => ?_
  refine Res.Answers.bind (Q := fun _ t => s.SameBeyond 0 0 0 t.tree.nodes.toNat t) (.atOutLen ?_)
    fun _ t h => .ok ⟨rfl, { h with }⟩
  refine (hinit.mono (fun _ _ h => h) fun _ _ _ h => h ▸ hraise _).bind ?_
  rintro _ _ ⟨br, rfl⟩
  refine (huffDeserialize_stores (s := { s with outLen := 0, br := br }) hp).mono (fun _ t h => { h with }) ?_
  rintro _ sym t ⟨rfl, h⟩
  exact { h with }

/-! ## COMPRESS -/

/-- COMPRESS stores TOK[0..n], FREQ, CODE and NODE[0..635) at most (R290, R243). -/
theorem compress_storesTables (n dataType auxWidth : Nat) {s : State} (hp : s.params.legal) :
    (compress n dataType auxWidth s).All (s.SameBeyond (n + 1) 512 512 635) := by
  have hwriter {t : State} (ht : s.SameBeyond (n + 1) 512 512 635 t) (u : State)
      (hu : ∃ dst bw, u = { t with dst := dst, bw := bw }) : s.SameBeyond (n + 1) 512 512 635 u := by
    obtain ⟨dst, bw, rfl⟩ := hu
    exact { ht with }
  refine compress_all (.refl s) (fun t ht => ?_) (fun t ht => ?_) (fun t ht => ?_) (fun t ht => ?_)
    (fun t ht => hwriter ht _ ⟨_, _, rfl⟩) (fun t ht => ?_) (fun t ht => ?_) (fun t ht => ?_) (fun t ht => ?_)
  · exact (lzMatch_stores n (ht.params ▸ hp)).all
      (fun _ u ⟨hk, hu⟩ => ht.trans (hu.mono hk (Nat.zero_le _) (Nat.zero_le _) (Nat.zero_le _))) fun _ _ u hu => hu ▸ ht
  · exact (freqCount_stores t).all
      (fun _ u hu => ht.trans (hu.mono (Nat.zero_le _) le_rfl (Nat.zero_le _) (Nat.zero_le _))) fun _ _ u hu => hu ▸ ht
  · exact (huffBuild_stores t).all
      (fun _ u ⟨hk, hu⟩ => ht.trans (hu.mono (Nat.zero_le _) (Nat.zero_le _) (Nat.zero_le _) hk))
      fun _ _ u hu => ht.trans (hu.mono (Nat.zero_le _) (Nat.zero_le _) (Nat.zero_le _) (Nat.zero_le _))
  · exact (huffCodes_stores t).all
      (fun _ u hu => ht.trans (hu.mono (Nat.zero_le _) (Nat.zero_le _) le_rfl (Nat.zero_le _))) fun _ _ u hu => hu ▸ ht
  · exact (bwInit_sameButBw 9 t).mono fun u ⟨bw, hu⟩ => hwriter ht u ⟨_, bw, hu⟩
  · exact (huffSerialize_sameButWriter t).mono (hwriter ht)
  · exact (huffEncode_sameButWriter t).mono (hwriter ht)
  · exact (flush_sameButWriter t).mono (hwriter ht)

/-! ## The instructions -/

/-- Settles O60: each storing instruction by its rule. -/
theorem tableStoresStayInPlace : Obligations.TableStoresStayInPlace := by
  intro s t hp
  refine ⟨fun h => ?_, fun h => ?_, fun h => ?_, fun h => ?_, fun h => ?_, fun h => ?_, fun h j => ?_⟩
  · exact (lzMatch_stores s.arg0 hp).finish
      (R := fun t => ∀ j, t.status.done = false ∨ t.tokCount.toNat ≤ j → t.tokAt j = s.tokAt j) h
      (fun _ u hu j hj => hu.2.tokAt j (hj.resolve_left nofun)) fun _ _ _ u hu _ _ => hu ▸ rfl
  · exact (freqCount_stores s).finish
      (R := fun t => ∀ j, t.status.done = false ∨ 512 ≤ j → t.freqAt j = s.freqAt j) h
      (fun _ u hu j hj => hu.freqAt j (hj.resolve_left nofun)) fun _ _ _ u hu _ _ => hu ▸ rfl
  · exact (huffCodes_stores s).finish
      (R := fun t => ∀ j, t.status.done = false ∨ 512 ≤ j → t.codeAt j = s.codeAt j) h
      (fun _ u hu j hj => hu.codeAt j (hj.resolve_left nofun)) fun _ _ _ u hu _ _ => hu ▸ rfl
  · rw [exec, execHuffBuild] at h
    exact (huffBuild_stores s).finish
      (R := fun t => ∀ j, t.status.done = false ∨ t.tree.nodes.toNat ≤ j → t.nodeAt j = s.nodeAt j) h
      (fun _ u hu j hj => hu.2.nodeAt j (hj.resolve_left nofun)) fun _ _ _ u hu j _ => hu.nodeAt j j.zero_le
  · exact (huffDeserialize_stores hp).finish
      (R := fun t => ∀ j, (if t.status.done then t.tree.nodes.toNat else t.errSym.toNat) ≤ j → t.nodeAt j = s.nodeAt j) h
      (fun _ u hu => hu.nodeAt) fun _ _ _ u hu => hu.2.nodeAt
  · exact (decompress_stores s.arg0 hp).goOn
      (R := fun t => ∀ j, (if t.phase = .decoding then t.tree.nodes.toNat
        else if t.status.code = some .malformedTree then t.errSym.toNat else 0) ≤ j → t.nodeAt j = s.nodeAt j) h
      (fun u hu j hj => hu.2.nodeAt j (by rwa [if_pos hu.1] at hj)) fun e _ _ u hu j hj => hu.nodeAt j (by simpa using hj)
  · obtain ⟨u, hu, ht⟩ := ((compress_storesTables s.arg0 s.arg1 s.arg2 hp).results _).finish_sameButOutcome h
    exact ⟨fun hj => (ht.tokAt j).trans (hu.tokAt j hj), fun hj => (ht.freqAt j).trans (hu.freqAt j hj),
      fun hj => (ht.codeAt j).trans (hu.codeAt j hj), fun hj => (ht.nodeAt j).trans (hu.nodeAt j hj)⟩

end Sys2Proof.Machine
end

section
/-! Code trees: no code begins another, and together they are complete (R8, R244, R245), and the sizes of a tree (R114, R247). -/

namespace Sys2Proof.Machine

/-! ## Sizes -/

/-- A full tree of k leaves has 2k - 1 nodes (R247). -/
theorem CodeTree.size_eq (tree : CodeTree) : tree.size = 2 * tree.leaves - 1 := by
  induction tree with
  | leaf sym => rfl
  | node l r ihl ihr =>
    have := l.leaves_pos
    have := r.leaves_pos
    rw [size, leaves, ihl, ihr]
    omega

/-- Settles O40: the writes of a tree are its bits, so one count serves both. -/
theorem serializedSize : Obligations.SerializedSize := by
  refine ⟨fun _ => rfl, fun _ _ => rfl, fun tree => ?_⟩
  have hlen : tree.serialBits.length = 11 * tree.leaves - 1 := by
    rw [← tree.bitsOfWrites_serialWrites, bitsOfWrites_length, tree.totalBits_serialWrites]
  exact ⟨tree.totalBits_serialWrites, hlen, tree.bitsOfWrites_serialWrites, tree.size_eq⟩

/-! ## Codes -/

theorem CodeTree.length_paths (tree : CodeTree) : tree.paths.length = tree.leaves := by
  induction tree with
  | leaf sym => rfl
  | node l r ihl ihr => simp [paths, leaves, ihl, ihr]

/-- No edge string of a tree begins another (R245). -/
theorem CodeTree.paths_pairwise_not_isPrefix (tree : CodeTree) :
    tree.paths.Pairwise fun x y => ¬x.2 <+: y.2 ∧ ¬y.2 <+: x.2 := by
  induction tree with
  | leaf sym => exact List.pairwise_singleton _ _
  | node l r ihl ihr =>
    refine List.pairwise_append.2 ⟨?_, ?_, fun x hx y hy => ?_⟩
    · simpa [List.pairwise_map] using ihl
    · simpa [List.pairwise_map] using ihr
    · obtain ⟨x, -, rfl⟩ := List.mem_map.1 hx
      obtain ⟨y, -, rfl⟩ := List.mem_map.1 hy
      simp

/-- An edge put before every string, with one level of depth more, leaves each leaf's share of 2^depth. -/
theorem sum_shares_cons (paths : List (Nat × List Bool)) (b : Bool) (d : Nat) :
    ((paths.map fun x => (x.1, b :: x.2)).map fun x => 2 ^ (d + 1 - x.2.length)) =
      paths.map fun x => 2 ^ (d - x.2.length) := by
  simp [Function.comp_def]

/-- Kraft's equality, at any depth no edge string exceeds (R245). -/
theorem CodeTree.kraft {tree : CodeTree} {d : Nat} (h : ∀ x ∈ tree.paths, x.2.length ≤ d) :
    (tree.paths.map fun x => 2 ^ (d - x.2.length)).sum = 2 ^ d := by
  induction tree generalizing d with
  | leaf sym => simp [paths]
  | node l r ihl ihr =>
    have hl : ∀ x ∈ l.paths, x.2.length + 1 ≤ d := fun x hx =>
      h (x.1, false :: x.2) (List.mem_append_left _ (List.mem_map_of_mem hx))
    have hr : ∀ x ∈ r.paths, x.2.length + 1 ≤ d := fun x hx =>
      h (x.1, true :: x.2) (List.mem_append_right _ (List.mem_map_of_mem hx))
    cases d with
    | zero =>
      obtain ⟨x, hx⟩ := List.exists_mem_of_length_pos (l.length_paths ▸ l.leaves_pos)
      exact absurd (hl x hx) (Nat.not_succ_le_zero _)
    | succ d =>
      rw [paths, List.map_append, sum_shares_cons, sum_shares_cons, List.sum_append,
        ihl fun x hx => Nat.le_of_succ_le_succ (hl x hx), ihr fun x hx => Nat.le_of_succ_le_succ (hr x hx)]
      omega

/-- A tree of one leaf is that leaf. -/
theorem CodeTree.eq_leaf_of_leaves_eq_one {tree : CodeTree} (h : tree.leaves = 1) : ∃ sym, tree = .leaf sym := by
  cases tree with
  | leaf sym => exact ⟨sym, rfl⟩
  | node l r =>
    have := l.leaves_pos
    have := r.leaves_pos
    rw [leaves] at h
    omega

/-- val by its first digit (R8). -/
theorem valBits_cons (b : Bool) (bs : List Bool) :
    valBits (b :: bs) = (if b then 2 ^ bs.length else 0) + valBits bs := by
  rw [← List.singleton_append, valBits_append]
  cases b <;> simp [valBits]

/-- Settles O38: each fact by induction on the tree, Kraft's equality at the depth of its deepest leaf. -/
theorem codesArePrefixFree : Obligations.CodesArePrefixFree := by
  refine ⟨fun _ => rfl, fun _ _ => rfl, rfl, valBits_cons, fun n v => ⟨bitsOf_length n v, valBits_bitsOf n v⟩, fun tree => ?_⟩
  refine ⟨tree.paths_pairwise_not_isPrefix, CodeTree.kraft fun x hx => ?_, fun h => ?_⟩
  · rw [List.foldl_eq_foldr]
    exact List.le_max_of_le' 0 (List.mem_map_of_mem hx) le_rfl
  · obtain ⟨sym, rfl⟩ := CodeTree.eq_leaf_of_leaves_eq_one h
    rfl

end Sys2Proof.Machine
end

section
/-! FREQ_COUNT: the table after a run of tokens holds their counts, and the first token that cannot be counted stops it
(R240). -/

namespace Sys2Proof.Machine

/-! ## The table of counts -/

/-- The table of FREQ_COUNT after the symbols `l` (R240). -/
def countTable (l : List Nat) : List Nat := (List.range Config.symbols).map fun x => l.count x

/-- Symbols FREQ_COUNT can count: all in the alphabet, none more than 2^32 - 1 times (R240). -/
def Countable (l : List Nat) : Prop := (∀ x ∈ l, inAlphabet x = true) ∧ ∀ x, l.count x ≤ 2 ^ 32 - 1

theorem countTable_nil : countTable [] = List.replicate Config.symbols 0 := by
  simp [countTable, List.map_const']

theorem countTable_getD (l : List Nat) {x : Nat} (h : x < Config.symbols) (d : Nat) : (countTable l).getD x d = l.count x := by
  simp [countTable, List.getD_eq_getElem?_getD, List.getElem?_range h]

/-- One symbol more is one count more. -/
theorem countTable_set (l : List Nat) (x : Nat) : (countTable l).set x (l.count x + 1) = countTable (l ++ [x]) := by
  refine List.ext_getElem (by simp [countTable]) fun i hi hi' => ?_
  by_cases h : x = i <;> simp [countTable, List.count_singleton, h]

theorem countTable_countP (l : List Nat) :
    (countTable l).countP (fun k => k > 0) = (List.range Config.symbols).countP fun x => l.contains x := by
  rw [countTable, List.countP_map]
  refine List.countP_congr fun x _ => ?_
  simp [List.count_pos_iff]

theorem lt_symbols_of_inAlphabet {x : Nat} (h : inAlphabet x = true) : x < Config.symbols := by
  have := (inAlphabet_iff x).1 h
  show x < 512
  omega

/-! ## The loop -/

/-- Countable symbols pass, and leave the table of all the symbols so far (R240). -/
theorem countSymbols_append {seen before : List Nat} (h : Countable (seen ++ before)) (rest : List Nat) (i : Nat) :
    countSymbols (before ++ rest) i (countTable seen) =
      countSymbols rest (i + before.length) (countTable (seen ++ before)) := by
  induction before generalizing seen i with
  | nil => simp
  | cons x xs ih =>
    have hx : inAlphabet x = true := h.1 x (by simp)
    have hcount : seen.count x + 1 ≤ 2 ^ 32 - 1 := by
      refine le_trans ?_ (h.2 x)
      simp only [List.count_append, List.count_cons_self]
      omega
    rw [List.append_cons] at h ⊢
    rw [List.cons_append, countSymbols, countTable_getD _ (lt_symbols_of_inAlphabet hx), hx, if_neg (by decide),
      if_neg (by omega), countTable_set, ih h, List.length_cons, Nat.add_assoc, Nat.add_comm 1]

/-- Countable symbols are all counted (R240). -/
theorem countSymbols_of_countable {l : List Nat} (h : Countable l) :
    countSymbols l 0 (List.replicate Config.symbols 0) = .ok (countTable l) := by
  have := countSymbols_append (seen := []) h [] 0
  rwa [List.append_nil, List.nil_append, countTable_nil] at this

/-- After countable symbols the loop stands before the next with their table (R240). -/
theorem countSymbols_of_countable_append {before : List Nat} (h : Countable before) (rest : List Nat) :
    countSymbols (before ++ rest) 0 (List.replicate Config.symbols 0) =
      countSymbols rest before.length (countTable before) := by
  rw [← countTable_nil, countSymbols_append (seen := []) h, Nat.zero_add, List.nil_append]

/-! ## The command -/

/-- The arm of FREQ_COUNT (R240). -/
theorem exec_freqCount (s : State) : exec .freqCount s =
    ((freqCount s).bind fun k t => .ok { Results.none with r0 := some k } t).finish := rfl

theorem exec_freqCount_of_ok {s : State} {f : List Nat}
    (h : countSymbols (s.tokens.map Token.sym) 0 (List.replicate Config.symbols 0) = .ok f) :
    exec .freqCount s = .next ((s.putFreq 0 (f.map (BitVec.ofNat 32))).complete
      { Results.none with r0 := some (f.countP fun k => k > 0) }) := by
  rw [exec_freqCount, freqCount, h, Res.bind_ok, Res.finish_ok]

theorem exec_freqCount_of_error {s : State} {e : EngineError} {i sym : Nat}
    (h : countSymbols (s.tokens.map Token.sym) 0 (List.replicate Config.symbols 0) = .error (e, i, sym)) :
    exec .freqCount s = .next (s.raise e i sym) := by
  rw [exec_freqCount, freqCount, h, Res.bind_raised, Res.finish_raised]

/-- SYM, XBITS and XVAL of a TOK element (R104). -/
theorem Token.ofWord_eq (w : Half) : Token.ofWord w =
    { sym := w.toNat % 2 ^ 9, xbits := w.toNat / 2 ^ 12 % 2 ^ 4, xval := w.toNat / 2 ^ 16 } := by
  have hval : w.toNat / 2 ^ 16 % 2 ^ 16 = w.toNat / 2 ^ 16 := by
    have := w.isLt
    omega
  rw [Token.ofWord, bitField, bitField, bitField, hval, Nat.pow_zero, Nat.div_one]

/-- The written table reads back as the counts, and nothing above it changes (R240). -/
theorem State.freqAt_putFreq_countTable (s : State) (l : List Nat) (x : Nat) :
    (s.putFreq 0 ((countTable l).map (BitVec.ofNat 32))).freqAt x =
      if x < 512 then BitVec.ofNat 32 (l.count x) else s.freqAt x := by
  rw [State.freqAt_putFreq]
  refine ite_congr (by simp [countTable, Config.symbols]) (fun hx => ?_) fun _ => rfl
  rw [Nat.sub_zero, List.getD_eq_getElem?_getD, List.getElem?_map, countTable, List.getElem?_map,
    List.getElem?_range (show x < Config.symbols from hx)]
  rfl

/-- Settles O35: countable symbols leave their table; otherwise the loop stops at the first symbol that is not countable. -/
theorem freqCountCounts : Obligations.FreqCountCounts := by
  intro s syms counts
  refine ⟨?_, fun hall => ?_, fun before x after hsplit hbefore => ?_⟩
  · simp only [State.tokens, Token.ofWord_eq]
  · refine ⟨s.freq.put 0 ((countTable syms).map (BitVec.ofNat 32)), ?_, fun x hx => ?_, fun x hx => ?_⟩
    · rw [exec_freqCount_of_ok (countSymbols_of_countable hall), State.complete_eq_afterDone, Quad.setResults_r0,
        countTable_countP]
      rfl
    · have := hall.2 x
      refine (congrArg BitVec.toNat ((s.freqAt_putFreq_countTable syms x).trans (if_pos hx))).trans ?_
      rw [BitVec.toNat_ofNat, Nat.mod_eq_of_lt (by omega)]
    · exact (s.freqAt_putFreq_countTable syms x).trans (if_neg (Nat.not_lt.2 hx))
  · have hloop := countSymbols_of_countable_append hbefore (x :: after)
    rw [← hsplit] at hloop
    refine ⟨fun hx => ?_, fun hx hfull => ?_⟩
    · rw [countSymbols, hx, if_pos (by decide)] at hloop
      exact exec_freqCount_of_error hloop
    · rw [countSymbols, hx, if_neg (by decide), countTable_getD _ (lt_symbols_of_inAlphabet hx), if_pos hfull] at hloop
      exact exec_freqCount_of_error hloop

end Sys2Proof.Machine
end

section
/-! HUFF_CODES: the entry of each symbol of the tree that NODE holds, and the leaf too deep for one (R105, R106, R244). -/

namespace Sys2Proof.Machine

/-! ## The tree in NODE -/

/-- The fields of a NODE element (R106). -/
theorem NodeEntry.ofWord_eq (w : Word) : NodeEntry.ofWord w =
    if 2 ^ 63 ≤ w.toNat then .leaf (w.toNat % 2 ^ 9)
    else .internal (w.toNat % 2 ^ 9) (w.toNat / 2 ^ 16 % 2 ^ 10) (w.toNat / 2 ^ 32 % 2 ^ 10) := by
  have htag : bitField w.toNat 63 1 = 1 ↔ 2 ^ 63 ≤ w.toNat := by
    have := w.isLt
    unfold bitField
    omega
  rw [NodeEntry.ofWord, bitField.eq_def _ 0, bitField.eq_def _ 16, bitField.eq_def _ 32, Nat.pow_zero, Nat.div_one]
  exact ite_congr (propext htag) (fun _ => rfl) fun _ => rfl

theorem State.treeAt_succ_of_leaf {s : State} {i : Nat} (h : 2 ^ 63 ≤ (s.nodeAt i).toNat) (depth : Nat) :
    s.treeAt (depth + 1) i = some (.leaf ((s.nodeAt i).toNat % 2 ^ 9)) := by
  rw [State.treeAt, NodeEntry.ofWord_eq, if_pos h]

/-- Below an internal node stand the trees of its children (R106). -/
theorem State.treeAt_succ_of_internal {s : State} {i : Nat} (h : (s.nodeAt i).toNat < 2 ^ 63) (depth : Nat) (t : CodeTree) :
    s.treeAt (depth + 1) i = some t ↔ ∃ l r, t = .node l r ∧
      s.treeAt depth ((s.nodeAt i).toNat / 2 ^ 16 % 2 ^ 10) = some l ∧
      s.treeAt depth ((s.nodeAt i).toNat / 2 ^ 32 % 2 ^ 10) = some r := by
  rw [State.treeAt, NodeEntry.ofWord_eq, if_neg (Nat.not_le.2 h)]
  dsimp only
  cases s.treeAt depth ((s.nodeAt i).toNat / 2 ^ 16 % 2 ^ 10) with
  | none => simp
  | some l =>
    cases s.treeAt depth ((s.nodeAt i).toNat / 2 ^ 32 % 2 ^ 10) with
    | none => simp
    | some r => simp [eq_comm]

/-- A NODE element holds a 9-bit symbol, so a tree read from NODE has no other (R106). -/
theorem State.lt_of_mem_paths_treeAt {s : State} {depth i : Nat} {t : CodeTree} (h : s.treeAt depth i = some t) :
    ∀ x ∈ t.paths, x.1 < Config.symbols := by
  induction depth generalizing i t with
  | zero => cases h
  | succ depth ih =>
    by_cases hw : (s.nodeAt i).toNat < 2 ^ 63
    · obtain ⟨l, r, rfl, hl, hr⟩ := (State.treeAt_succ_of_internal hw depth t).1 h
      intro x hx
      rcases List.mem_append.1 hx with hx | hx
      · obtain ⟨y, hy, rfl⟩ := List.mem_map.1 hx
        exact ih hl y hy
      · obtain ⟨y, hy, rfl⟩ := List.mem_map.1 hx
        exact ih hr y hy
    · rw [State.treeAt_succ_of_leaf (Nat.le_of_not_lt hw)] at h
      cases h
      intro x hx
      rw [List.mem_singleton.1 hx]
      exact Nat.mod_lt _ (by decide)

/-! ## The code table -/

/-- A symbol's entry is its first leaf's path (R244). -/
theorem codeWordOf_of_first {before after : List (Nat × List Bool)} {y : Nat} {h : List Bool} (hy : ∀ x ∈ before, x.1 ≠ y) :
    codeWordOf (before ++ (y, h) :: after) y = (CodeEntry.ofPath h).toWord := by
  have hfind : (before ++ (y, h) :: after).find? (fun x => x.1 == y) = some (y, h) := by
    rw [List.find?_append, List.find?_eq_none.2 fun x hx => by simpa using hy x hx]
    simp
  rw [codeWordOf, hfind]

/-- A symbol that labels no leaf has the invalid entry (R244). -/
theorem codeWordOf_of_absent {paths : List (Nat × List Bool)} {y : Nat} (hy : ∀ x ∈ paths, x.1 ≠ y) :
    codeWordOf paths y = 0 := by
  rw [codeWordOf, List.find?_eq_none.2 fun x hx => by simpa using hy x hx]

/-- The written table reads back as each symbol's entry, and nothing above it changes (R244). -/
theorem State.codeAt_putCode_codeWordOf (s : State) (paths : List (Nat × List Bool)) (y : Nat) :
    (s.putCode 0 ((List.range Config.symbols).map (codeWordOf paths))).codeAt y =
      if y < 512 then codeWordOf paths y else s.codeAt y := by
  rw [State.codeAt_putCode]
  refine ite_congr (by simp [Config.symbols]) (fun hy => ?_) fun _ => rfl
  rw [Nat.sub_zero, List.getD_eq_getElem?_getD, List.getElem?_map, List.getElem?_range (show y < Config.symbols from hy)]
  rfl

/-! ## The command -/

/-- The arm of HUFF_CODES (R244). -/
theorem exec_huffCodes (s : State) : exec .huffCodes s =
    ((huffCodes s).bind fun r t => .ok { Results.none with r0 := some r.1, r1 := some r.2 } t).finish := rfl

section
variable {s : State} {tree : CodeTree}

theorem exec_huffCodes_of_invalid (hv : s.tree.valid = false) : exec .huffCodes s = .next (s.raise .noTree 0 0) := by
  rw [exec_huffCodes, huffCodes, withTree_of_invalid s _ hv, Res.bind_raised, Res.finish_raised]

/-- A tree of depth up to 56 is written to CODE (R244). -/
theorem exec_huffCodes_of_fits (hv : s.tree.valid = true) (ht : s.tree? = some tree) (hfit : ∀ x ∈ tree.paths, x.2.length ≤ 56) :
    exec .huffCodes s = .next ((s.putCode 0 ((List.range Config.symbols).map (codeWordOf tree.paths))).complete
      { Results.none with
        r0 := some ((List.range Config.symbols).countP fun sym => tree.paths.any fun x => x.1 == sym)
        r1 := some (maxPathLength tree.paths) }) := by
  have hfind : tree.paths.find? (fun x => x.2.length > Config.codeLenMax) = none :=
    List.find?_eq_none.2 fun x hx => by simpa [Config.codeLenMax] using hfit x hx
  rw [exec_huffCodes, huffCodes, withTree_of_tree s _ tree hv ht, hfind, Res.bind_ok, Res.finish_ok]

/-- The first leaf deeper than 56 raises (R244). -/
theorem exec_huffCodes_of_deep {before after : List (Nat × List Bool)} {y : Nat} {h : List Bool} (hv : s.tree.valid = true)
    (ht : s.tree? = some tree) (hsplit : tree.paths = before ++ (y, h) :: after) (hfit : ∀ x ∈ before, x.2.length ≤ 56)
    (hdeep : 56 < h.length) : exec .huffCodes s = .next (s.raise .codeTooLong h.length y) := by
  have hfind : tree.paths.find? (fun x => x.2.length > Config.codeLenMax) = some (y, h) := by
    rw [hsplit, List.find?_append,
      List.find?_eq_none.2 fun x hx => by simpa [Config.codeLenMax] using hfit x hx]
    simp [Config.codeLenMax, hdeep]
  rw [exec_huffCodes, huffCodes, withTree_of_tree s _ tree hv ht, hfind, Res.bind_raised, Res.finish_raised]

end

/-- The two results that HUFF_CODES gives leave RES2 and RES3 (R143). -/
theorem Quad.setResults_r0_r1 (q : Quad) (v w : Nat) :
    q.setResults { Results.none with r0 := some v, r1 := some w } = { q with r0 := Word.ofNat v, r1 := Word.ofNat w } := rfl

theorem maxPathLength_eq (paths : List (Nat × List Bool)) :
    maxPathLength paths = (paths.map fun x => x.2.length).foldl max 0 := by
  rw [maxPathLength, List.foldl_map]

/-- Settles O37: the tree fits CODE, or its first leaf deeper than 56 stops the command. -/
theorem huffCodesCompletes : Obligations.HuffCodesCompletes := by
  intro s
  refine ⟨⟨rfl, fun depth i => ⟨rfl, fun hw => State.treeAt_succ_of_leaf hw depth,
    fun hw => State.treeAt_succ_of_internal hw depth⟩⟩, fun tree hv ht hfit => ?_,
    fun tree before y h after hv ht hsplit hfit hdeep => exec_huffCodes_of_deep hv ht hsplit hfit hdeep,
    exec_huffCodes_of_invalid⟩
  have hread := s.codeAt_putCode_codeWordOf tree.paths
  refine ⟨s.code.put 0 ((List.range Config.symbols).map (codeWordOf tree.paths)), ?_, fun before y h after hsplit hfirst => ?_,
    fun y hy habsent => ?_, fun y hy => (hread y).trans (if_neg (Nat.not_lt.2 hy))⟩
  · rw [exec_huffCodes_of_fits hv ht hfit, State.complete_eq_afterDone, Quad.setResults_r0_r1, maxPathLength_eq]
    rfl
  · have hy : y < 512 := State.lt_of_mem_paths_treeAt ht (y, h) (by rw [hsplit]; simp)
    refine ((hread y).trans (if_pos hy)).trans ?_
    rw [hsplit, codeWordOf_of_first hfirst, CodeEntry.ofPath, CodeEntry.toWord, Bool.toNat_true, Nat.one_mul]
  · exact ((hread y).trans (if_pos hy)).trans (codeWordOf_of_absent habsent)

end Sys2Proof.Machine
end

section
/-! The merges of HUFF_BUILD as a relation: each takes the two first nodes of the queue and writes the next NODE element (R241,
R242). -/

namespace Sys2Proof.Machine

/-! ## The two first nodes of a queue -/

theorem QueueNode.precedes_iff (x y : QueueNode) :
    x.precedes y = true ↔ x.weight < y.weight ∨ (x.weight = y.weight ∧ x.key < y.key) := by
  simp [QueueNode.precedes]

/-- The order of R241 is total on nodes with different keys. -/
theorem QueueNode.precedes_of_not_precedes {x y : QueueNode} (h : ¬y.precedes x = true) (hkey : x.key ≠ y.key) :
    x.precedes y = true := by
  rw [precedes_iff] at h ⊢
  omega

theorem QueueNode.not_precedes_self (x : QueueNode) : ¬x.precedes x = true := by simp [precedes]

/-- No node of the queue precedes the one popFirst takes (R242). -/
theorem not_precedes_of_popFirst {q q' : List QueueNode} {a : QueueNode} (h : popFirst q = some (a, q')) :
    ∀ y ∈ q, ¬y.precedes a = true := by
  induction q generalizing a q' with
  | nil => cases h
  | cons x xs ih =>
    rw [popFirst] at h
    split at h
    · rename_i hn
      cases h
      rw [(popFirst_eq_none_iff xs).1 hn]
      simpa using x.not_precedes_self
    · rename_i y rest hy
      split at h
      · rename_i hyx
        cases h
        refine List.forall_mem_cons.2 ⟨?_, ih hy⟩
        simp only [QueueNode.precedes_iff] at hyx ⊢
        omega
      · rename_i hyx
        cases h
        refine List.forall_mem_cons.2 ⟨x.not_precedes_self, fun z hz => ?_⟩
        have := ih hy z hz
        simp only [QueueNode.precedes_iff] at hyx this ⊢
        omega

/-- `a` and `c` are the two first nodes of `q` in the order of R241, and `rest` is what they leave. -/
structure FirstTwo (q : List QueueNode) (a c : QueueNode) (rest : List QueueNode) : Prop where
  perm : q.Perm (a :: c :: rest)
  first : ∀ y ∈ c :: rest, ¬y.precedes a = true
  second : ∀ y ∈ rest, ¬y.precedes c = true

theorem firstTwo_of_popFirst {q q1 q2 : List QueueNode} {a c : QueueNode} (ha : popFirst q = some (a, q1))
    (hc : popFirst q1 = some (c, q2)) : FirstTwo q a c q2 where
  perm := (popFirst_perm ha).trans ((popFirst_perm hc).cons a)
  first y hy := not_precedes_of_popFirst ha y
    ((popFirst_perm ha).mem_iff.2 (List.mem_cons_of_mem a ((popFirst_perm hc).mem_iff.2 hy)))
  second y hy := not_precedes_of_popFirst hc y ((popFirst_perm hc).mem_iff.2 (List.mem_cons_of_mem c hy))

/-- A queue that holds a node has a first one. -/
theorem exists_popFirst {q : List QueueNode} (h : q ≠ []) : ∃ a q', popFirst q = some (a, q') := by
  cases ha : popFirst q with
  | none => exact absurd ((popFirst_eq_none_iff q).1 ha) h
  | some p => exact ⟨p.1, p.2, rfl⟩

/-! ## Merges -/

/-- The node two merged nodes leave in the queue (R242). -/
def QueueNode.merge (a c : QueueNode) (nx : Nat) : QueueNode :=
  { weight := a.weight + c.weight, key := min a.key c.key, idx := nx }

/-- The NODE element two merged nodes get (R106, R242). -/
def QueueNode.mergeWord (a c : QueueNode) : Word := (NodeEntry.internal (min a.key c.key) a.idx c.idx).toWord

/-- The merges from queue `q` and NODE `node`, the next element free being `nx`, end in `out`, the root and NODE (R242). -/
inductive Merges : List QueueNode → Nat → Mem 64 → Nat × Mem 64 → Prop where
  | done (x : QueueNode) (nx : Nat) (node : Mem 64) : Merges [x] nx node (x.idx, node)
  | merge {q rest : List QueueNode} {a c : QueueNode} {nx : Nat} {node : Mem 64} {out : Nat × Mem 64}
      (hfirst : FirstTwo q a c rest)
      (hrest : Merges (a.merge c nx :: rest) (nx + 1) (node.put nx [a.mergeWord c]) out) : Merges q nx node out

/-- The loop of HUFF_BUILD makes these merges (R242). -/
theorem huffMerge_merges {fuel : Nat} {q : List QueueNode} (h : q.length = fuel + 1) (nx : Nat) (node : Mem 64) :
    Merges q nx node (huffMerge fuel q nx node) := by
  induction fuel generalizing q nx node with
  | zero =>
    obtain ⟨x, rfl⟩ := List.length_eq_one_iff.1 h
    exact .done x nx node
  | succ fuel ih =>
    obtain ⟨a, q1, ha⟩ := exists_popFirst (List.ne_nil_of_length_eq_add_one h)
    have h1 : q1.length = fuel + 1 := by simpa [h] using (popFirst_perm ha).length_eq.symm
    obtain ⟨c, q2, hc⟩ := exists_popFirst (List.ne_nil_of_length_eq_add_one h1)
    have h2 : q2.length = fuel := by simpa [h1] using (popFirst_perm hc).length_eq.symm
    have hrest := ih (q := a.merge c nx :: q2) (by simp [h2]) (nx + 1) (node.put nx [a.mergeWord c])
    rw [huffMerge, ha]
    simp only [hc]
    exact .merge (firstTwo_of_popFirst ha hc) hrest

section
variable {q : List QueueNode} {nx : Nat} {node : Mem 64} {out : Nat × Mem 64}

theorem FirstTwo.length_eq {rest : List QueueNode} {a c : QueueNode} (h : FirstTwo q a c rest) :
    q.length = rest.length + 2 := h.perm.length_eq

/-- The root is the last node made: one merge for each node but one (R243). -/
theorem Merges.root (h : Merges q nx node out) (hlast : ∀ x, q = [x] → x.idx + 1 = nx) : out.1 + 2 = nx + q.length := by
  induction h with
  | done x nx node => simp [← hlast x rfl]
  | merge hfirst hrest ih =>
    have := ih fun x hx => by cases hx; rfl
    rw [hfirst.length_eq]
    rw [List.length_cons] at this
    omega

/-- The merges leave the elements below `nx` alone. -/
theorem Merges.read_of_lt (h : Merges q nx node out) (fill : Nat → Word) {j : Nat} (hj : j < nx) :
    out.2.read fill j = node.read fill j := by
  induction h with
  | done => rfl
  | merge hfirst hrest ih => rw [ih (Nat.lt_succ_of_lt hj), Mem.read_put_singleton, if_neg (Nat.ne_of_lt hj)]

/-! ## The tree built -/

/-- Each node of the queue is the root of its tree, stored below `nx`. -/
def RootsOf (read : Nat → Word) (nx : Nat) (q : List QueueNode) (trees : List CodeTree) : Prop :=
  List.Forall₂ (fun x t => x.key < 2 ^ 9 ∧ t.StoredAt read 0 nx x.idx) q trees

/-- The leaf symbols of a tree, from left to right. -/
def CodeTree.syms (t : CodeTree) : List Nat := t.paths.map Prod.fst

theorem CodeTree.syms_node (l r : CodeTree) : (CodeTree.node l r).syms = l.syms ++ r.syms := by
  simp [syms, paths, Function.comp_def]

/-- Two roots merged: their trees stand below the new node (R242). -/
theorem RootsOf.merge {fill : Nat → Word} {a c : QueueNode} {rest : List QueueNode} {ta tc : CodeTree} {trees : List CodeTree}
    (h : RootsOf (node.read fill) nx (a :: c :: rest) (ta :: tc :: trees)) (hnx : nx < 2 ^ 10) :
    RootsOf ((node.put nx [a.mergeWord c]).read fill) (nx + 1) (a.merge c nx :: rest) (.node ta tc :: trees) := by
  simp only [RootsOf, List.forall₂_cons] at h
  obtain ⟨⟨hka, ha⟩, ⟨hkc, hc⟩, hrest⟩ := h
  have hkey : min a.key c.key < 2 ^ 9 := by omega
  have hkeep (j : Nat) (_ : 0 ≤ j) (hj : j < nx) : (node.put nx [a.mergeWord c]).read fill j = node.read fill j := by
    rw [Mem.read_put_singleton, if_neg (by omega)]
  have hword : NodeEntry.ofWord ((node.put nx [a.mergeWord c]).read fill nx) = .internal (min a.key c.key) a.idx c.idx := by
    rw [Mem.read_put_singleton, if_pos rfl]
    exact NodeEntry.ofWord_toWord_internal hkey (ha.index_lt.trans hnx) (hc.index_lt.trans hnx)
  have hgrow := Nat.le_succ nx
  exact .cons ⟨hkey, Nat.zero_le nx, Nat.lt_succ_self nx, _, _, _, hword, ha.mono hkeep le_rfl hgrow, hc.mono hkeep le_rfl hgrow⟩
    (hrest.imp fun x t ⟨hk, ht⟩ => ⟨hk, ht.mono hkeep le_rfl hgrow⟩)

/-- The merges end in one tree over the symbols of all the trees they start from (R242, R243). -/
theorem Merges.tree (h : Merges q nx node out) {fill : Nat → Word} {trees : List CodeTree} (hcap : nx + q.length ≤ 2 ^ 10 + 1)
    (hroots : RootsOf (node.read fill) nx q trees) :
    ∃ (t : CodeTree) (hi : Nat), t.StoredAt (out.2.read fill) 0 hi out.1 ∧ t.syms.Perm (trees.flatMap CodeTree.syms) := by
  induction h generalizing trees with
  | done x nx node =>
    obtain ⟨t, _, ⟨-, ht⟩, hnil, rfl⟩ := List.forall₂_cons_left_iff.1 hroots
    cases hnil
    exact ⟨t, nx, ht, by simp⟩
  | merge hfirst hrest ih =>
    have hlen := hfirst.length_eq
    obtain ⟨trees', hroots', hperm⟩ := List.perm_comp_forall₂ hfirst.perm.symm hroots
    obtain ⟨ta, _, -, hroots1, rfl⟩ := List.forall₂_cons_left_iff.1 hroots'
    obtain ⟨tc, ts, -, -, rfl⟩ := List.forall₂_cons_left_iff.1 hroots1
    obtain ⟨t, hi, ht, hsyms⟩ := ih (by rw [List.length_cons]; omega) (RootsOf.merge hroots' (by omega))
    refine ⟨t, hi, ht, hsyms.trans (.trans (.of_eq ?_) (hperm.flatMap_right _))⟩
    simp [CodeTree.syms_node]

end

end Sys2Proof.Machine
end

section
/-! The order of HUFF_BUILD's merges: which two nodes each takes, and what it writes (R241, R242). -/

namespace Sys2Proof.Machine

/-- Node `x` still waits before merge `m`: it is one of `roots` or of the nodes merged from `nx` on, and no merge before `m` took
it (R242). -/
def Waits (roots : List Nat) (nx : Nat) (left right : Nat → Nat) (m x : Nat) : Prop :=
  (x ∈ roots ∨ nx ≤ x ∧ x < nx + m) ∧ ∀ m', m' < m → x ≠ left m' ∧ x ≠ right m'

/-- A merge takes the two first of the waiting nodes, `a` and `c`, and makes node `new` of them (R242); `info` gives each node
its weight and key. -/
structure MergesFirstTwo (read : Nat → Word) (info : Nat → QueueNode) (waits : Nat → Prop) (a c new : Nat) : Prop where
  left_waits : waits a
  right_waits : waits c
  ne : a ≠ c
  left_first : ∀ x, waits x → x ≠ a → (info a).precedes (info x) = true
  right_first : ∀ x, waits x → x ≠ a → x ≠ c → (info c).precedes (info x) = true
  word : read new = (NodeEntry.internal (min (info a).key (info c).key) a c).toWord
  weight : (info new).weight = (info a).weight + (info c).weight
  key : (info new).key = min (info a).key (info c).key

/-- A sequence with one value put before it. -/
def consSeq (x : Nat) (f : Nat → Nat) : Nat → Nat
  | 0 => x
  | m + 1 => f m

/-- Before the first merge the roots wait. -/
theorem waits_zero (roots : List Nat) (nx : Nat) (left right : Nat → Nat) (x : Nat) :
    Waits roots nx left right 0 x ↔ x ∈ roots := by
  have hnone : ¬(nx ≤ x ∧ x < nx) := by omega
  simp [Waits, hnone]

/-- Taken by no merge up to `m`: not by the first, and not by the `m` after it. -/
theorem forall_lt_succ_consSeq (a c : Nat) (left right : Nat → Nat) (m x : Nat) :
    (∀ m', m' < m + 1 → x ≠ consSeq a left m' ∧ x ≠ consSeq c right m') ↔
      (x ≠ a ∧ x ≠ c) ∧ ∀ m', m' < m → x ≠ left m' ∧ x ≠ right m' :=
  Nat.forall_lt_succ_left

/-- After one merge the waiting nodes are those of the merged queue. -/
theorem waits_succ {roots rest : List Nat} {a c nx : Nat} (hperm : roots.Perm (a :: c :: rest)) (hnodup : roots.Nodup)
    (hlt : ∀ x ∈ roots, x < nx) (left right : Nat → Nat) (m x : Nat) :
    Waits roots nx (consSeq a left) (consSeq c right) (m + 1) x ↔ Waits (nx :: rest) (nx + 1) left right m x := by
  have hmem : x ∈ roots ↔ x = a ∨ x = c ∨ x ∈ rest := by simp [hperm.mem_iff]
  have ha : a < nx := hlt a (by simp [hperm.mem_iff])
  have hc : c < nx := hlt c (by simp [hperm.mem_iff])
  rw [Waits, Waits, forall_lt_succ_consSeq, hmem, List.mem_cons, ← and_assoc]
  refine and_congr_left fun _ => ?_
  by_cases hx : x ∈ rest
  · have hxac : x ≠ a ∧ x ≠ c := by
      have := hperm.nodup_iff.1 hnodup
      simp only [List.nodup_cons, List.mem_cons, not_or] at this
      obtain ⟨⟨-, har⟩, hcr, -⟩ := this
      exact ⟨fun h => har (h ▸ hx), fun h => hcr (h ▸ hx)⟩
    simp [hx, hxac]
  · simp only [hx, or_false]
    omega

section
variable {q rest : List QueueNode} {a c : QueueNode} {nx : Nat} {node : Mem 64} {out : Nat × Mem 64}

/-- The first merge, read off its queue, with the weights and keys of its nodes in `info` (R242). -/
theorem FirstTwo.mergesFirstTwo (h : FirstTwo q a c rest) (hkeys : (q.map QueueNode.key).Nodup) {read : Nat → Word}
    {info : Nat → QueueNode} (hinfo : ∀ x ∈ q, info x.idx = x) (hnew : info nx = a.merge c nx)
    (hread : read nx = a.mergeWord c) :
    MergesFirstTwo read info (· ∈ q.map QueueNode.idx) a.idx c.idx nx := by
  have hmem (y : QueueNode) : y ∈ q ↔ y = a ∨ y = c ∨ y ∈ rest := by simp [h.perm.mem_iff]
  have ha : a ∈ q := (hmem a).2 (.inl rfl)
  have hc : c ∈ q := (hmem c).2 (.inr (.inl rfl))
  have hdiff := (h.perm.map QueueNode.key).nodup_iff.1 hkeys
  simp only [List.map_cons, List.nodup_cons, List.mem_cons, not_or] at hdiff
  obtain ⟨⟨hac, har⟩, hcr, -⟩ := hdiff
  have hrestkey (y : QueueNode) (hy : y ∈ rest) : a.key ≠ y.key ∧ c.key ≠ y.key :=
    ⟨fun e => har (e ▸ List.mem_map_of_mem hy), fun e => hcr (e ▸ List.mem_map_of_mem hy)⟩
  refine ⟨List.mem_map_of_mem ha, List.mem_map_of_mem hc, fun e => ?_, fun x hx hxa => ?_, fun x hx hxa hxc => ?_, ?_, ?_, ?_⟩
  · rw [← hinfo a ha, ← hinfo c hc, e] at hac
    exact hac rfl
  · obtain ⟨y, hy, rfl⟩ := List.mem_map.1 hx
    rw [hinfo a ha, hinfo y hy]
    rcases (hmem y).1 hy with rfl | rfl | hy
    · exact absurd rfl hxa
    · exact QueueNode.precedes_of_not_precedes (h.first _ (List.mem_cons_self ..)) hac
    · exact QueueNode.precedes_of_not_precedes (h.first y (List.mem_cons_of_mem _ hy)) (hrestkey y hy).1
  · obtain ⟨y, hy, rfl⟩ := List.mem_map.1 hx
    rw [hinfo c hc, hinfo y hy]
    rcases (hmem y).1 hy with rfl | rfl | hy
    · exact absurd rfl hxa
    · exact absurd rfl hxc
    · exact QueueNode.precedes_of_not_precedes (h.second y hy) (hrestkey y hy).2
  · rw [hinfo a ha, hinfo c hc]
    exact hread
  · rw [hinfo a ha, hinfo c hc, hnew]
    rfl
  · rw [hinfo a ha, hinfo c hc, hnew]
    rfl

/-- The lesser of two keys keeps the keys of a queue different. -/
theorem FirstTwo.merge_keys_nodup (h : FirstTwo q a c rest) (hkeys : (q.map QueueNode.key).Nodup) (nx : Nat) :
    ((a.merge c nx :: rest).map QueueNode.key).Nodup := by
  have := (h.perm.map QueueNode.key).nodup_iff.1 hkeys
  simp only [List.map_cons, List.nodup_cons, List.mem_cons, not_or] at this ⊢
  obtain ⟨⟨-, har⟩, hcr, hrest⟩ := this
  refine ⟨?_, hrest⟩
  rcases min_choice a.key c.key with hmin | hmin
  · rwa [QueueNode.merge, hmin]
  · rwa [QueueNode.merge, hmin]

/-- Every merge takes the two first of the nodes that wait, and makes the next node of them (R241, R242). -/
theorem Merges.order (h : Merges q nx node out) (fill : Nat → Word) (hkeys : (q.map QueueNode.key).Nodup)
    (hidx : ∀ x ∈ q, x.idx < nx) (info : Nat → QueueNode) (hinfo : ∀ x ∈ q, info x.idx = x) :
    ∃ (info' : Nat → QueueNode) (left right : Nat → Nat), (∀ j, j < nx → info' j = info j) ∧
      ∀ m, m + 1 < q.length → MergesFirstTwo (out.2.read fill) info' (Waits (q.map QueueNode.idx) nx left right m)
        (left m) (right m) (nx + m) := by
  induction h generalizing info with
  | done x nx node => exact ⟨info, id, id, fun _ _ => rfl, fun m hm => absurd hm (by simp)⟩
  | @merge q rest a c nx node out hfirst hrest ih =>
    have hmem (x : QueueNode) (hx : x ∈ rest) : x ∈ q := hfirst.perm.mem_iff.2 (by simp [hx])
    obtain ⟨info', left, right, hsame, hmerges⟩ := ih (hfirst.merge_keys_nodup hkeys nx)
      (List.forall_mem_cons.2 ⟨Nat.lt_succ_self nx, fun x hx => Nat.lt_succ_of_lt (hidx x (hmem x hx))⟩)
      (Function.update info nx (a.merge c nx))
      (List.forall_mem_cons.2 ⟨Function.update_self .., fun x hx => by
        rw [Function.update_of_ne (Nat.ne_of_lt (hidx x (hmem x hx))), hinfo x (hmem x hx)]⟩)
    have hold (j : Nat) (hj : j < nx) : info' j = info j := by
      rw [hsame j (Nat.lt_succ_of_lt hj), Function.update_of_ne (Nat.ne_of_lt hj)]
    have hnew : info' nx = a.merge c nx := by rw [hsame nx (Nat.lt_succ_self nx), Function.update_self]
    have hqinfo (x : QueueNode) (hx : x ∈ q) : info' x.idx = x := by rw [hold _ (hidx x hx), hinfo x hx]
    refine ⟨info', consSeq a.idx left, consSeq c.idx right, hold, fun m hm => ?_⟩
    cases m with
    | zero =>
      have hread : out.2.read fill nx = a.mergeWord c := by
        rw [hrest.read_of_lt fill (Nat.lt_succ_self nx), Mem.read_put_singleton, if_pos rfl]
      rw [funext fun x => propext (waits_zero (q.map QueueNode.idx) nx (consSeq a.idx left) (consSeq c.idx right) x)]
      exact hfirst.mergesFirstTwo hkeys hqinfo hnew hread
    | succ m =>
      have hnodup : (q.map QueueNode.idx).Nodup :=
        (List.Nodup.of_map _ hkeys).map_on fun x hx y hy e => by rw [← hqinfo x hx, ← hqinfo y hy, e]
      rw [funext fun x => propext (waits_succ (hfirst.perm.map QueueNode.idx) hnodup
        (List.forall_mem_map.2 hidx) left right m x), show nx + (m + 1) = nx + 1 + m by omega]
      exact hmerges m (by rw [List.length_cons]; rw [hfirst.length_eq] at hm; omega)

end

end Sys2Proof.Machine
end

section
/-! HUFF_BUILD, case by case: its leaves, its merges, and the tree they leave (R110, R241 to R243). -/

namespace Sys2Proof.Machine

/-- A stored tree that NODE_CAP bounds is the current tree (R35, R106). -/
theorem State.tree?_of_stored {s : State} {t : CodeTree} {lo hi root : Nat} (ht : t.StoredAt s.nodeAt lo hi root)
    (hroot : s.tree.root = Word.ofNat root) (hlt : root < 2 ^ 64) (hsize : t.size ≤ s.params.nodeCap) : s.tree? = some t := by
  rw [State.tree?, hroot, Word.toNat_ofNat_of_lt hlt]
  exact ht.treeAt_eq hsize

/-! ## The leaves -/

theorem State.usedSymbols_freqNat (s : State) : usedSymbols s.freqNat =
    (List.range 512).filter fun x => inAlphabet x && decide (s.freqAt x ≠ 0) := by
  refine List.filter_congr fun x _ => ?_
  simp [State.freqNat, Nat.pos_iff_ne_zero, BitVec.toNat_eq]

theorem State.badFreqSymbols_freqNat (s : State) : badFreqSymbols s.freqNat =
    (List.range 512).filter fun x => !inAlphabet x && decide (s.freqAt x ≠ 0) := by
  refine List.filter_congr fun x _ => congrArg (!inAlphabet x && ·) ?_
  rw [Bool.eq_iff_iff]
  simp [State.freqNat, BitVec.toNat_eq]

theorem usedSymbols_nodup (f : Nat → Nat) : (usedSymbols f).Nodup := List.nodup_range.filter _

section
variable (f : Nat → Nat) (syms : List Nat)

/-- Leaf j of the queue is symbol j at element j (R242). -/
theorem leafQueue_getElem? (j : Nat) :
    (leafQueue f syms)[j]? = syms[j]?.map fun x => { weight := f x, key := x, idx := j } := by
  simp [leafQueue, List.getElem?_zipIdx, Function.comp_def]

@[simp] theorem leafQueue_length : (leafQueue f syms).length = syms.length := by simp [leafQueue]

theorem leafQueue_map_key : (leafQueue f syms).map QueueNode.key = syms := by
  refine List.ext_getElem? fun j => ?_
  rw [List.getElem?_map, leafQueue_getElem?, Option.map_map]
  exact Option.map_id'

theorem leafQueue_map_idx : (leafQueue f syms).map QueueNode.idx = List.range syms.length := by
  refine List.ext_getElem (by simp) fun j hj hj' => ?_
  simp [leafQueue]

/-- NODE with the leaves of `syms` at its beginning (R242). -/
def putLeaves (node : Mem 64) : Mem 64 := node.put 0 (syms.map fun t => (NodeEntry.leaf t).toWord)

theorem putLeaves_read (node : Mem 64) (fill : Nat → Word) {j x : Nat} (hj : syms[j]? = some x) :
    (putLeaves syms node).read fill j = (NodeEntry.leaf x).toWord := by
  have hlt := (List.getElem?_eq_some_iff.1 hj).1
  rw [putLeaves, Mem.read, getD_get?_put, if_pos ⟨Nat.zero_le j, by simpa using hlt⟩, Nat.sub_zero,
    List.getD_eq_getElem?_getD, List.getElem?_map, hj]
  rfl

/-- The queue of leaves starts from one tree for each symbol (R242). -/
theorem leafQueue_rootsOf {syms : List Nat} (hs : ∀ x ∈ syms, x < 2 ^ 9) (node : Mem 64) (fill : Nat → Word) :
    RootsOf ((putLeaves syms node).read fill) syms.length (leafQueue f syms) (syms.map .leaf) := by
  refine List.forall₂_iff_get.2 ⟨by simp, fun j hj hj' => ?_⟩
  have hlt : j < syms.length := by simpa using hj'
  have hsym := hs _ (List.getElem_mem hlt)
  have hread := putLeaves_read syms node fill (List.getElem?_eq_getElem hlt)
  simp only [leafQueue, List.get_eq_getElem, List.getElem_map, List.getElem_zipIdx, Nat.zero_add]
  exact ⟨hsym, Nat.zero_le j, hlt, by rw [hread, NodeEntry.ofWord_toWord_leaf hsym]⟩

end

/-! ## The merges -/

/-- The weight and the key of the leaf at each element (R241). -/
def leafInfo (f : Nat → Nat) (syms : List Nat) (j : Nat) : QueueNode := (leafQueue f syms).getD j { weight := 0, key := 0, idx := j }

theorem leafInfo_of_getElem? {f : Nat → Nat} {syms : List Nat} {j x : Nat} (h : syms[j]? = some x) :
    leafInfo f syms j = { weight := f x, key := x, idx := j } := by
  rw [leafInfo, List.getD_eq_getElem?_getD, leafQueue_getElem?, h]
  rfl

theorem leafInfo_idx {f : Nat → Nat} {syms : List Nat} {x : QueueNode} (hx : x ∈ leafQueue f syms) :
    leafInfo f syms x.idx = x := by
  obtain ⟨j, hj⟩ := List.mem_iff_getElem?.1 hx
  rw [leafQueue_getElem?] at hj
  obtain ⟨y, hy, rfl⟩ := Option.map_eq_some_iff.1 hj
  exact leafInfo_of_getElem? hy

/-- A node waits before merge `m` when it exists and no merge before `m` took it. -/
theorem waits_range (k : Nat) (left right : Nat → Nat) (m x : Nat) :
    Waits (List.range k) k left right m x ↔ x < k + m ∧ ∀ m', m' < m → x ≠ left m' ∧ x ≠ right m' := by
  have : (x < k ∨ k ≤ x ∧ x < k + m) ↔ x < k + m := by omega
  rw [Waits, List.mem_range, this]

section
variable {f : Nat → Nat} {syms : List Nat} {node : Mem 64} {out : Nat × Mem 64}

/-- k leaves have the root 2k - 2 (R243). -/
theorem Merges.root_of_leafQueue (h : Merges (leafQueue f syms) syms.length (putLeaves syms node) out) :
    out.1 = 2 * syms.length - 2 := by
  have hlast : ∀ x, leafQueue f syms = [x] → x.idx + 1 = syms.length := fun x hx => by
    have hlen : syms.length = 1 := by rw [← leafQueue_length f, hx, List.length_singleton]
    have hidx := leafQueue_map_idx f syms
    rw [hx, hlen] at hidx
    rw [List.cons.inj hidx |>.1, hlen]
  have := h.root hlast
  rw [leafQueue_length] at this
  omega

/-- The merged tree is over exactly the symbols of its leaves, and so has 2k - 1 nodes (R242, R243). -/
theorem Merges.tree_of_leafQueue (h : Merges (leafQueue f syms) syms.length (putLeaves syms node) out)
    (hlt : ∀ x ∈ syms, x < 2 ^ 9) (hcap : 2 * syms.length ≤ 2 ^ 10) (fill : Nat → Word) :
    ∃ (tree : CodeTree) (hi : Nat), tree.StoredAt (out.2.read fill) 0 hi out.1 ∧ tree.syms.Perm syms ∧
      tree.size = 2 * syms.length - 1 := by
  obtain ⟨tree, hi, hstored, hsyms⟩ := h.tree (by rw [leafQueue_length]; omega) (leafQueue_rootsOf f hlt node fill)
  have hperm : tree.syms.Perm syms := by simpa [List.flatMap_map, CodeTree.syms, CodeTree.paths] using hsyms
  refine ⟨tree, hi, hstored, hperm, ?_⟩
  rw [tree.size_eq, ← tree.length_paths, ← List.length_map (f := Prod.fst)]
  exact congrArg (2 * · - 1) hperm.length_eq

/-- The leaves stay at the beginning of NODE (R242). -/
theorem Merges.read_leaf (h : Merges (leafQueue f syms) syms.length (putLeaves syms node) out) (fill : Nat → Word) {j x : Nat}
    (hj : syms[j]? = some x) : out.2.read fill j = BitVec.ofNat 64 (x + 2 ^ 63) :=
  (h.read_of_lt fill (List.getElem?_eq_some_iff.1 hj).1).trans (putLeaves_read syms node fill hj)

/-- The merges of the leaves of `syms` (R241, R242). -/
theorem Merges.order_of_leafQueue (h : Merges (leafQueue f syms) syms.length (putLeaves syms node) out) (hnodup : syms.Nodup)
    (fill : Nat → Word) :
    ∃ (info : Nat → QueueNode) (left right : Nat → Nat),
      (∀ j x, syms[j]? = some x → info j = { weight := f x, key := x, idx := j }) ∧
      ∀ m, m + 1 < syms.length → MergesFirstTwo (out.2.read fill) info
        (fun x => x < syms.length + m ∧ ∀ m', m' < m → x ≠ left m' ∧ x ≠ right m') (left m) (right m) (syms.length + m) := by
  have hidx : ∀ x ∈ leafQueue f syms, x.idx < syms.length := fun x hx => by
    have := List.mem_map_of_mem (f := QueueNode.idx) hx
    rwa [leafQueue_map_idx, List.mem_range] at this
  obtain ⟨info, left, right, hinfo, hmerges⟩ :=
    h.order fill (by rwa [leafQueue_map_key]) hidx (leafInfo f syms) fun _ => leafInfo_idx
  refine ⟨info, left, right, fun j x hj => ?_, fun m hm => ?_⟩
  · rw [hinfo j (List.getElem?_eq_some_iff.1 hj).1, leafInfo_of_getElem? hj]
  · have := hmerges m (by rwa [leafQueue_length])
    rwa [leafQueue_map_idx, funext fun x => propext (waits_range syms.length left right m x)] at this

end

/-! ## The command -/

/-- The arm of HUFF_BUILD (R242). -/
theorem exec_huffBuild (s : State) : exec .huffBuild s =
    ((huffBuild s).bind fun r t => .ok { r0 := some r.1, r1 := some r.2.1, r2 := some r.2.2, r3 := none } t).finish := rfl

theorem State.freqNat_setTree (s : State) (t : TreeRegs) : ({ s with tree := t } : State).freqNat = s.freqNat := rfl

section
variable {s : State}

/-- A nonzero count outside the alphabet raises, with TREE_VALID = 0 (R242). -/
theorem exec_huffBuild_of_bad {x : Nat} {rest : List Nat} (h : badFreqSymbols s.freqNat = x :: rest) :
    exec .huffBuild s =
      .next (State.raise { s with tree := { s.tree with valid := false } } .unsupportedSymbol 0 x) := by
  rw [exec_huffBuild]
  unfold huffBuild
  simp only [State.freqNat_setTree, h, Res.bind_raised, Res.finish_raised]

/-- An all-zero table raises, with TREE_VALID = 0 (R242). -/
theorem exec_huffBuild_of_empty (h : badFreqSymbols s.freqNat = []) (hk : usedSymbols s.freqNat = []) :
    exec .huffBuild s = .next (State.raise { s with tree := { s.tree with valid := false } } .badArgument 0 0) := by
  rw [exec_huffBuild]
  unfold huffBuild
  simp only [State.freqNat_setTree, h, hk, List.length_nil, if_true, Res.bind_raised, Res.finish_raised]

/-- Otherwise HUFF_BUILD makes the merges of the leaves of the used symbols (R242). -/
theorem exec_huffBuild_of_used {syms : List Nat} (h : badFreqSymbols s.freqNat = []) (hsyms : usedSymbols s.freqNat = syms)
    (hne : syms ≠ []) : ∃ out, Merges (leafQueue s.freqNat syms) syms.length (putLeaves syms s.node) out ∧
      exec .huffBuild s = .next (State.complete { s with
        node := out.2
        tree := { root := Word.ofNat out.1, nodes := Word.ofNat (2 * syms.length - 1), valid := true } }
        { r0 := some out.1, r1 := some (2 * syms.length - 1), r2 := some syms.length, r3 := none }) := by
  have hlen : (leafQueue s.freqNat syms).length = syms.length - 1 + 1 := by
    have := List.length_pos_of_ne_nil hne
    rw [leafQueue_length]
    omega
  refine ⟨_, huffMerge_merges hlen _ _, ?_⟩
  rw [exec_huffBuild]
  unfold huffBuild
  simp only [State.freqNat_setTree, h, hsyms, List.length_eq_zero_iff, hne, if_false, Res.bind_ok, Res.finish_ok]
  rfl

end

/-- Settles O36: the merges take the first nodes in order, and their tree stands in NODE over the used symbols. -/
theorem huffBuildBuildsTree : Obligations.HuffBuildBuildsTree := by
  intro s hp used bad k
  have hused : usedSymbols s.freqNat = used := s.usedSymbols_freqNat
  have hbad : badFreqSymbols s.freqNat = bad := s.badFreqSymbols_freqNat
  clear_value used bad
  refine ⟨fun hb hu => ?_, fun x rest h => exec_huffBuild_of_bad (hbad.trans h),
    fun hb hu => exec_huffBuild_of_empty (hbad.trans hb) (hused.trans hu)⟩
  have hk : used.length ≤ 318 := hused ▸ usedSymbols_length_le s.freqNat
  have hcap : 2 * used.length - 1 ≤ s.params.nodeCap := by have := hp.2.2.2.2.1; omega
  have hlt : ∀ x ∈ used, x < 2 ^ 9 := fun x hx => lt_of_mem_usedSymbols (hused ▸ hx)
  have hnodup : used.Nodup := hused ▸ usedSymbols_nodup s.freqNat
  obtain ⟨⟨root, node⟩, hmerges, hexec⟩ := exec_huffBuild_of_used (hbad.trans hb) hused hu
  obtain rfl : root = 2 * used.length - 2 := hmerges.root_of_leafQueue
  obtain ⟨tree, hi, hstored, hsyms, hsize⟩ := hmerges.tree_of_leafQueue hlt (by omega) (Config.nodeFill s.ramEpoch)
  obtain ⟨info, left, right, hleaf, hmerge⟩ := hmerges.order_of_leafQueue hnodup (Config.nodeFill s.ramEpoch)
  refine ⟨_, tree, hexec, State.tree?_of_stored hstored rfl (by omega) (hsize.trans_le hcap), hsyms, hsize, rfl,
    fun j => (info j).weight, fun j => (info j).key, left, right,
    fun j x hj => ⟨hmerges.read_leaf _ hj, congrArg QueueNode.weight (hleaf j x hj), congrArg QueueNode.key (hleaf j x hj)⟩,
    fun m hm => ?_⟩
  intro queued precedes a c
  have h := hmerge m hm
  exact ⟨h.left_waits, h.right_waits, h.ne, fun x hx hxa => (QueueNode.precedes_iff _ _).1 (h.left_first x hx hxa),
    fun x hx hxa hxc => (QueueNode.precedes_iff _ _).1 (h.right_first x hx hxa hxc), h.word, h.weight, h.key⟩

end Sys2Proof.Machine
end

section
/-! HUFF_DESERIALIZE: des() rebuilds the tree its bits spell, and where other bits break off it raises (R270 to R272). -/

namespace Sys2Proof.Machine

/-! ## Serialized trees as lists of nodes -/

/-- The nodes of a tree in pre-order: none for an internal one, its symbol for a leaf (R114). -/
def CodeTree.items : CodeTree → List (Option Nat)
  | .leaf sym => [some sym]
  | .node l r => none :: (l.items ++ r.items)

theorem CodeTree.flatMap_items (tree : CodeTree) : tree.items.flatMap itemBits = tree.serialBits := by
  induction tree with
  | leaf sym => exact List.flatMap_singleton _ _
  | node l r ihl ihr => rw [items, List.flatMap_cons, List.flatMap_append, ihl, ihr]; rfl

theorem CodeTree.length_items (tree : CodeTree) : tree.items.length = tree.size := by
  induction tree with
  | leaf sym => rfl
  | node l r ihl ihr => rw [items, List.length_cons, List.length_append, ihl, ihr, size]

theorem CodeTree.lt_of_mem_items {tree : CodeTree} (hfit : tree.symbolsFit = true) {sym : Nat} (h : some sym ∈ tree.items) :
    sym < 2 ^ 9 := by
  induction tree with
  | leaf sym' => cases List.mem_singleton.1 h; exact of_decide_eq_true hfit
  | node l r ihl ihr =>
    obtain ⟨hl, hr⟩ := Bool.and_eq_true_iff.1 hfit
    rcases List.mem_append.1 ((List.mem_cons.1 h).resolve_left (by simp)) with h | h
    · exact ihl hl h
    · exact ihr hr h

/-- No initial part of the nodes has more than `n` leaves beyond its internal nodes. -/
def LeavesWithin (n : Nat) (items : List (Option Nat)) : Prop :=
  ∀ k, (items.take k).countP Option.isSome ≤ (items.take k).countP Option.isNone + n

section
variable {n : Nat} {items : List (Option Nat)}

theorem leavesWithin_nil (n : Nat) : LeavesWithin n [] := fun k => by simp

theorem LeavesWithin.succ (h : LeavesWithin n items) : LeavesWithin (n + 1) items := fun k => (h k).trans (Nat.le_succ _)

/-- An internal node makes one more leaf due. -/
theorem LeavesWithin.cons_none (h : LeavesWithin (n + 1) items) : LeavesWithin n (none :: items) := fun k => by
  cases k with
  | zero => simp
  | succ k =>
    have := h k
    rw [List.take_succ_cons, List.countP_cons_of_neg (by simp), List.countP_cons_of_pos rfl]
    omega

theorem LeavesWithin.cons_some (h : LeavesWithin n items) (sym : Nat) :
    LeavesWithin (n + 1) (some sym :: items) := fun k => by
  cases k with
  | zero => simp
  | succ k =>
    rw [List.take_succ_cons, List.countP_cons_of_pos rfl, List.countP_cons_of_neg (by simp)]
    exact Nat.succ_le_succ (h k)

/-- A whole tree stands for one leaf. -/
theorem LeavesWithin.items_append (tree : CodeTree) (h : LeavesWithin n items) :
    LeavesWithin (n + 1) (tree.items ++ items) := by
  induction tree generalizing n items with
  | leaf sym => exact h.cons_some sym
  | node l r ihl ihr =>
    rw [CodeTree.items, List.cons_append, List.append_assoc]
    exact (ihl (ihr h)).cons_none

end

/-! ## Bits that break a tree off -/

/-- TreeBreaksOff along the recursion of des(): read as a subtree for which NODE has `cap` elements, `bits` break off after the
nodes `items`, with `cnt` nodes allocated and the bits `left` not consumed (R271). -/
inductive SerialBreaksOff : Nat → List Bool → List (Option Nat) → Nat → List Bool → Prop
  | full (bits : List Bool) : SerialBreaksOff 0 bits [] 0 bits
  | noTag (cap : Nat) : SerialBreaksOff (cap + 1) [] [] 1 []
  | shortLeaf (cap : Nat) {left : List Bool} (h : left.length < 9) : SerialBreaksOff (cap + 1) (true :: left) [] 1 left
  | inLeft {cap cnt : Nat} {bits left : List Bool} {items : List (Option Nat)}
      (h : SerialBreaksOff cap bits items cnt left) :
      SerialBreaksOff (cap + 1) (false :: bits) (none :: items) (cnt + 1) left
  | inRight {cap cnt : Nat} {bits left : List Bool} {items : List (Option Nat)} (l : CodeTree) (hfit : l.symbolsFit = true)
      (h : SerialBreaksOff cap bits items cnt left) :
      SerialBreaksOff (cap + l.size + 1) (false :: (l.serialBits ++ bits)) (none :: (l.items ++ items))
        (cnt + l.size + 1) left

/-- Bits begin with a serialized tree that NODE holds, or break off. -/
theorem serialBits_or_breaksOff (cap : Nat) (bits : List Bool) :
    (∃ (tree : CodeTree) (rest : List Bool), bits = tree.serialBits ++ rest ∧ tree.symbolsFit = true ∧ tree.size ≤ cap) ∨
      ∃ items cnt left, SerialBreaksOff cap bits items cnt left := by
  induction cap using Nat.strong_induction_on generalizing bits with
  | _ cap ih =>
  rcases cap with _ | cap
  · exact .inr ⟨_, _, _, .full bits⟩
  rcases bits with _ | ⟨_ | _, bits⟩
  · exact .inr ⟨_, _, _, .noTag cap⟩
  · rcases ih cap (Nat.lt_succ_self cap) bits with ⟨l, rest, rfl, hfitl, hl⟩ | ⟨items, cnt, left, h⟩
    · rcases ih (cap - l.size) (by omega) rest with ⟨r, rest, rfl, hfitr, hr⟩ | ⟨items, cnt, left, h⟩
      · refine .inl ⟨.node l r, rest, ?_, Bool.and_eq_true_iff.2 ⟨hfitl, hfitr⟩, ?_⟩
        · rw [CodeTree.serialBits, List.cons_append, List.append_assoc]
        · rw [CodeTree.size]; omega
      · have hright := h.inRight l hfitl
        rw [Nat.sub_add_cancel hl] at hright
        exact .inr ⟨_, _, _, hright⟩
    · exact .inr ⟨_, _, _, h.inLeft⟩
  · rcases Nat.lt_or_ge bits.length 9 with hshort | hlong
    · exact .inr ⟨_, _, _, .shortLeaf cap hshort⟩
    · have hlen : (bits.take 9).length = 9 := List.length_take_of_le hlong
      refine .inl ⟨.leaf (valBits (bits.take 9)), bits.drop 9, ?_, ?_, Nat.le_add_left 1 cap⟩
      · have hsym := bitsOf_valBits (bits.take 9)
        rw [hlen] at hsym
        rw [CodeTree.serialBits, Config.leafBits, hsym, List.cons_append, List.take_append_drop]
      · have hlt := valBits_lt (bits.take 9)
        rw [hlen] at hlt
        exact decide_eq_true hlt

section
variable {cap cnt : Nat} {bits left : List Bool} {items : List (Option Nat)}

/-- After each node read a subtree is still due. -/
theorem SerialBreaksOff.leavesWithin (h : SerialBreaksOff cap bits items cnt left) : LeavesWithin 0 items := by
  induction h with
  | full | noTag | shortLeaf => exact leavesWithin_nil 0
  | inLeft _ ih => exact ih.succ.cons_none
  | inRight l _ _ ih => exact (ih.items_append l).cons_none

theorem SerialBreaksOff.lt_of_mem (h : SerialBreaksOff cap bits items cnt left) {sym : Nat} (hsym : some sym ∈ items) :
    sym < 2 ^ 9 := by
  induction h with
  | full | noTag | shortLeaf => cases hsym
  | inLeft _ ih => exact ih ((List.mem_cons.1 hsym).resolve_left (by simp))
  | inRight l hfit _ ih =>
    rcases List.mem_append.1 ((List.mem_cons.1 hsym).resolve_left (by simp)) with hsym | hsym
    · exact CodeTree.lt_of_mem_items hfit hsym
    · exact ih hsym

/-- The bits are those of the nodes read and a rest that NODE or the next read has no room for. -/
theorem SerialBreaksOff.bits_eq (h : SerialBreaksOff cap bits items cnt left) :
    ∃ rest, bits = items.flatMap itemBits ++ rest ∧
      ((items.length = cap ∧ cnt = cap ∧ left = rest) ∨
        (items.length < cap ∧ cnt = items.length + 1 ∧
          ((rest = [] ∧ left = []) ∨ (rest = true :: left ∧ left.length < 9)))) := by
  induction h with
  | full bits => exact ⟨bits, rfl, .inl ⟨rfl, rfl, rfl⟩⟩
  | noTag cap => exact ⟨[], rfl, .inr ⟨Nat.succ_pos cap, rfl, .inl ⟨rfl, rfl⟩⟩⟩
  | shortLeaf cap h => exact ⟨_, rfl, .inr ⟨Nat.succ_pos cap, rfl, .inr ⟨rfl, h⟩⟩⟩
  | inLeft _ ih =>
    obtain ⟨rest, hbits, hend⟩ := ih
    refine ⟨rest, by rw [hbits, List.flatMap_cons]; rfl, ?_⟩
    rw [List.length_cons]
    exact hend.imp (fun ⟨hlen, hcnt, hleft⟩ => ⟨by omega, by omega, hleft⟩)
      fun ⟨hlen, hcnt, hrest⟩ => ⟨by omega, by omega, hrest⟩
  | inRight l _ _ ih =>
    obtain ⟨rest, hbits, hend⟩ := ih
    refine ⟨rest, ?_, ?_⟩
    · rw [hbits, List.flatMap_cons, List.flatMap_append, l.flatMap_items, List.append_assoc, List.append_assoc]; rfl
    · rw [List.length_cons, List.length_append, l.length_items]
      exact hend.imp (fun ⟨hlen, hcnt, hleft⟩ => ⟨by omega, by omega, hleft⟩)
        fun ⟨hlen, hcnt, hrest⟩ => ⟨by omega, by omega, hrest⟩

theorem SerialBreaksOff.treeBreaksOff (h : SerialBreaksOff cap bits items cnt left) : TreeBreaksOff cap bits items cnt left :=
  ⟨fun k _ => h.leavesWithin k, fun _ => h.lt_of_mem, h.bits_eq⟩

end

/-! ## Trees in NODE in pre-order -/

section
variable {α : Type} {P : α → Word → Prop} {read read' : Nat → Word} {i : Nat} {x : α} {xs ys : List α}

/-- `xs` describes, by `P`, the NODE elements from index `i` on. -/
def Describes (P : α → Word → Prop) (read : Nat → Word) (i : Nat) (xs : List α) : Prop :=
  ∀ j x, xs[j]? = some x → P x (read (i + j))

theorem describes_nil : Describes P read i [] := fun j x hj => by simp at hj

theorem describes_cons : Describes P read i (x :: xs) ↔ P x (read i) ∧ Describes P read (i + 1) xs := by
  refine ⟨fun h => ⟨h 0 x rfl, fun j y hj => ?_⟩, fun ⟨hx, hxs⟩ j y hj => ?_⟩
  · rw [Nat.add_assoc, Nat.add_comm 1]
    exact h (j + 1) y hj
  · cases j with
    | zero => cases hj; exact hx
    | succ j =>
      rw [Nat.add_comm j, ← Nat.add_assoc]
      exact hxs j y hj

theorem describes_append : Describes P read i (xs ++ ys) ↔ Describes P read i xs ∧ Describes P read (i + xs.length) ys := by
  induction xs generalizing i with
  | nil => exact (and_iff_right describes_nil).symm
  | cons x xs ih =>
    rw [List.cons_append, describes_cons, ih, describes_cons, and_assoc, List.length_cons, Nat.add_right_comm]
    rfl

theorem Describes.congr (h : Describes P read i xs) (hread : ∀ j, i ≤ j → j < i + xs.length → read' j = read j) :
    Describes P read' i xs := fun j x hj => by
  rw [hread (i + j) (Nat.le_add_right i j) (Nat.add_lt_add_left (List.getElem?_eq_some_iff.1 hj).1 i)]
  exact h j x hj

end

/-- The element holds the node's leaf, if it is one (R106). -/
def HoldsLeaf (item : Option Nat) (w : Word) : Prop := ∀ sym, item = some sym → w = BitVec.ofNat 64 (sym + 2 ^ 63)

theorem holdsLeaf_none (w : Word) : HoldsLeaf none w := fun _ h => by cases h

/-- The words of the tree, its nodes in pre-order, stand in NODE from index `i` (R271). -/
def CodeTree.ArenaAt (read : Nat → Word) (i : Nat) (tree : CodeTree) : Prop :=
  Describes (fun w v => v = w) read i (tree.arena i)

section
variable {read read' : Nat → Word} {i : Nat} {l r tree : CodeTree}

theorem CodeTree.length_arena (tree : CodeTree) (i : Nat) : (tree.arena i).length = tree.size := by
  induction tree generalizing i with
  | leaf sym => rfl
  | node l r ihl ihr => rw [arena, List.length_cons, List.length_append, ihl, ihr, size]

theorem CodeTree.arenaAt_leaf {sym : Nat} : (CodeTree.leaf sym).ArenaAt read i ↔ read i = (NodeEntry.leaf sym).toWord :=
  describes_cons.trans (and_iff_left describes_nil)

/-- A node's words are its own, then its left subtree's, then its right subtree's. -/
theorem CodeTree.arenaAt_node : (CodeTree.node l r).ArenaAt read i ↔
    read i = (NodeEntry.internal (min l.least r.least) (i + 1) (i + 1 + l.size)).toWord ∧
      l.ArenaAt read (i + 1) ∧ r.ArenaAt read (i + 1 + l.size) := by
  rw [ArenaAt, arena, describes_cons, describes_append, l.length_arena]
  rfl

theorem CodeTree.ArenaAt.congr (h : tree.ArenaAt read i) (hread : ∀ j, i ≤ j → j < i + tree.size → read' j = read j) :
    tree.ArenaAt read' i :=
  Describes.congr h fun j hj hj' => hread j hj (tree.length_arena i ▸ hj')

theorem CodeTree.ArenaAt.holdsLeaf (h : tree.ArenaAt read i) : Describes HoldsLeaf read i tree.items := by
  induction tree generalizing i with
  | leaf sym => exact describes_cons.2 ⟨fun _ hsym => by cases hsym; exact arenaAt_leaf.1 h, describes_nil⟩
  | node l r ihl ihr =>
    obtain ⟨-, hl, hr⟩ := arenaAt_node.1 h
    exact describes_cons.2 ⟨holdsLeaf_none _, describes_append.2 ⟨ihl hl, l.length_items ▸ ihr hr⟩⟩

theorem CodeTree.least_lt (hfit : tree.symbolsFit = true) : tree.least < 2 ^ 9 := by
  induction tree with
  | leaf sym => exact of_decide_eq_true hfit
  | node l r ihl ihr => exact (Nat.min_le_left _ _).trans_lt (ihl (Bool.and_eq_true_iff.1 hfit).1)

/-- A tree whose words stand in NODE is stored in their elements (R106). -/
theorem CodeTree.ArenaAt.storedAt (h : tree.ArenaAt read i) (hfit : tree.symbolsFit = true) (hi : i + tree.size ≤ 2 ^ 10) :
    tree.StoredAt read i (i + tree.size) i := by
  induction tree generalizing i with
  | leaf sym =>
    exact ⟨le_rfl, Nat.lt_succ_self i, by
      rw [arenaAt_leaf.1 h, NodeEntry.ofWord_toWord_leaf (of_decide_eq_true hfit)]⟩
  | node l r ihl ihr =>
    obtain ⟨hw, hl, hr⟩ := arenaAt_node.1 h
    obtain ⟨hfitl, hfitr⟩ := Bool.and_eq_true_iff.1 hfit
    have hsize : (CodeTree.node l r).size = l.size + r.size + 1 := rfl
    have := r.size_pos
    refine ⟨le_rfl, by omega, min l.least r.least, i + 1, i + 1 + l.size, ?_, ?_, ?_⟩
    · rw [hw]
      exact NodeEntry.ofWord_toWord_internal (least_lt hfit) (by omega) (by omega)
    · exact (ihl hl hfitl (by omega)).mono (fun _ _ _ => rfl) (Nat.le_succ i) (by omega)
    · exact (ihr hr hfitr (by omega)).mono (fun _ _ _ => rfl) (by omega) (by omega)

end

/-! ## Steps of des() -/

/-- Bits at the front of the reader's are read as their number (R168). -/
theorem readBits_of_append {s : State} {n : Nat} {bits rest : List Bool} (hp : s.params.legal) (hs : s.readerInv)
    (hn : bits.length = n) (h : s.readerBits = bits ++ rest) :
    ∃ t, readBits n s = .ok (valBits bits) t ∧ s.Consumed t n ∧ t.readerBits = rest := by
  obtain ⟨t, ht, hc⟩ := readBits_consumes (n := n) hp hs (by rw [h, List.length_append, hn]; exact Nat.le_add_right n _)
  rw [h, List.take_left' hn] at ht
  exact ⟨t, ht, hc, by rw [hc.bits, h, List.drop_left' hn]⟩

/-- One bit (R168). -/
theorem readBits_of_cons {s : State} {b : Bool} {rest : List Bool} (hp : s.params.legal) (hs : s.readerInv)
    (h : s.readerBits = b :: rest) :
    ∃ t, readBits 1 s = .ok b.toNat t ∧ s.Consumed t 1 ∧ t.readerBits = rest := by
  have hval : valBits [b] = b.toNat := Nat.zero_add _
  exact hval ▸ readBits_of_append (bits := [b]) hp hs rfl h

/-- From `s` to `t` the reader has gone on to the bits `left`, and NODE has changed from element `cnt` on (R271). -/
structure State.ReadsNodes (cnt : Nat) (left : List Bool) (s t : State) : Prop where
  frame : ∃ br node, t = { s with br := br, node := node }
  inv : t.readerInv
  stop : t.br.stop = s.br.stop
  bits : t.readerBits = left
  kept : ∀ j, j < cnt → t.nodeAt j = s.nodeAt j

section
variable {s t u : State} {cnt cnt' depth n : Nat} {left left' rest : List Bool}

theorem State.ReadsNodes.refl (hs : s.readerInv) (hbits : s.readerBits = left) : s.ReadsNodes cnt left s :=
  ⟨⟨s.br, s.node, rfl⟩, hs, rfl, hbits, fun _ _ => rfl⟩

theorem State.Consumed.readsNodes (h : s.Consumed t n) (hbits : t.readerBits = left) (cnt : Nat) : s.ReadsNodes cnt left t := by
  obtain ⟨br, rfl⟩ := h.frame
  exact ⟨⟨br, s.node, rfl⟩, h.inv, h.stop, hbits, fun _ _ => rfl⟩

theorem State.ReadsNodes.params (h : s.ReadsNodes cnt left t) : t.params = s.params := by
  obtain ⟨br, node, rfl⟩ := h.frame
  rfl

theorem State.ReadsNodes.trans (h : s.ReadsNodes cnt left t) (h' : t.ReadsNodes cnt' left' u) (hle : cnt ≤ cnt') :
    s.ReadsNodes cnt left' u where
  frame := by
    obtain ⟨_, _, rfl⟩ := h.frame
    obtain ⟨br, node, rfl⟩ := h'.frame
    exact ⟨br, node, rfl⟩
  inv := h'.inv
  stop := h'.stop.trans h.stop
  bits := h'.bits
  kept j hj := (h'.kept j (hj.trans_le hle)).trans (h.kept j hj)

theorem State.ReadsNodes.putNode (h : s.ReadsNodes cnt left t) (w : Word) : s.ReadsNodes cnt left (t.putNode cnt [w]) where
  frame := by
    obtain ⟨br, node, rfl⟩ := h.frame
    exact ⟨br, node.put cnt [w], rfl⟩
  inv := h.inv
  stop := h.stop
  bits := h.bits
  kept j hj := by rw [State.nodeAt_putNode_singleton, if_neg hj.ne, h.kept j hj]

/-- NODE is full (R271). -/
theorem des_of_full (hc : cnt = s.params.nodeCap) (depth : Nat) :
    des depth cnt s = .raised .malformedTree s.br.pos.toNat cnt s := by
  cases depth with
  | zero => rfl
  | succ depth => exact if_pos hc

section
variable (hp : s.params.legal) (hs : s.readerInv) (hc : cnt < s.params.nodeCap)
include hc

/-- The bits end before a node (R271). -/
theorem des_of_noTag (hbits : s.readerBits = []) :
    des (depth + 1) cnt s = .raised .malformedTree s.br.pos.toNat (cnt + 1) s := by
  rw [des, if_neg hc.ne, readBits_of_short 1 s (by rw [hbits]; exact Nat.one_pos), Res.raiseAs_raised, Res.bind_raised]

include hp hs

/-- The bits end inside a leaf's symbol (R271). -/
theorem des_of_shortLeaf (hbits : s.readerBits = true :: left) (hshort : left.length < 9) :
    ∃ t, des (depth + 1) cnt s = .raised .malformedTree t.br.pos.toNat (cnt + 1) t ∧ s.ReadsNodes cnt left t := by
  obtain ⟨t, htag, hread, hleft⟩ := readBits_of_cons hp hs hbits
  refine ⟨t, ?_, hread.readsNodes hleft cnt⟩
  rw [des, if_neg hc.ne, htag, Res.raiseAs_ok, Res.bind_ok, if_pos Bool.toNat_true,
    readBits_of_short Config.leafBits t (hleft ▸ hshort), Res.raiseAs_raised, Res.bind_raised]

/-- A leaf is read and stored (R271). -/
theorem des_of_leaf {sym : Nat} (hsym : sym < 2 ^ 9) (hbits : s.readerBits = true :: (bitsOf 9 sym ++ rest)) :
    ∃ t, des (depth + 1) cnt s =
        .ok { idx := cnt, least := sym, cnt := cnt + 1 } (t.putNode cnt [(NodeEntry.leaf sym).toWord]) ∧
      s.ReadsNodes cnt rest t := by
  obtain ⟨t, htag, hread, hleft⟩ := readBits_of_cons hp hs hbits
  obtain ⟨u, hval, hread', hrest⟩ := readBits_of_append (hread.params ▸ hp) hread.inv (bitsOf_length 9 sym) hleft
  rw [valBits_bitsOf, Nat.mod_eq_of_lt hsym] at hval
  refine ⟨u, ?_, (hread.trans hread').readsNodes hrest cnt⟩
  rw [des, if_neg hc.ne, htag, Res.raiseAs_ok, Res.bind_ok, if_pos Bool.toNat_true, Config.leafBits, hval,
    Res.raiseAs_ok, Res.bind_ok]

/-- An internal node is read, then its two subtrees, and it is stored (R271). -/
theorem des_of_internal (hbits : s.readerBits = false :: rest) :
    ∃ t, s.ReadsNodes cnt rest t ∧ des (depth + 1) cnt s = (des depth (cnt + 1) t).bind fun l u =>
      (des depth l.cnt u).bind fun r v => .ok { idx := cnt, least := min l.least r.least, cnt := r.cnt }
        (v.putNode cnt [(NodeEntry.internal (min l.least r.least) l.idx r.idx).toWord]) := by
  obtain ⟨t, htag, hread, hleft⟩ := readBits_of_cons hp hs hbits
  refine ⟨t, hread.readsNodes hleft cnt, ?_⟩
  rw [des, if_neg hc.ne, htag, Res.raiseAs_ok, Res.bind_ok, if_neg (by decide)]

end

/-! ## des() -/

/-- des() rebuilds the tree its bits begin with, in pre-order from `cnt` (R271, R272). -/
theorem des_of_tree {tree : CodeTree} (hp : s.params.legal) (hs : s.readerInv) (hfit : tree.symbolsFit = true)
    (hbits : s.readerBits = tree.serialBits ++ rest) (hcap : cnt + tree.size ≤ s.params.nodeCap) (hd : tree.size ≤ depth) :
    ∃ t, des depth cnt s = .ok { idx := cnt, least := tree.least, cnt := cnt + tree.size } t ∧ s.ReadsNodes cnt rest t ∧
      tree.ArenaAt t.nodeAt cnt := by
  induction tree generalizing s cnt depth rest with
  | leaf sym =>
    obtain ⟨depth, rfl⟩ := Nat.exists_eq_add_one.2 hd
    obtain ⟨t, hdes, ht⟩ := des_of_leaf (depth := depth) hp hs hcap (of_decide_eq_true hfit) hbits
    exact ⟨_, hdes, ht.putNode _, CodeTree.arenaAt_leaf.2 (by rw [State.nodeAt_putNode_singleton, if_pos rfl])⟩
  | node l r ihl ihr =>
    obtain ⟨hfitl, hfitr⟩ := Bool.and_eq_true_iff.1 hfit
    rw [CodeTree.size] at hcap hd
    rw [CodeTree.serialBits, List.cons_append, List.append_assoc] at hbits
    obtain ⟨depth, rfl⟩ := Nat.exists_eq_add_one.2 (show 0 < depth by omega)
    obtain ⟨t, ht, hdes⟩ := des_of_internal (depth := depth) hp hs (show cnt < s.params.nodeCap by omega) hbits
    obtain ⟨u, hdesl, hu, hl⟩ := ihl (cnt := cnt + 1) (depth := depth) (ht.params ▸ hp) ht.inv hfitl ht.bits
      (by rw [ht.params]; omega) (by omega)
    have htu := ht.trans hu (Nat.le_succ cnt)
    obtain ⟨v, hdesr, hv, hr⟩ := ihr (cnt := cnt + 1 + l.size) (depth := depth) (htu.params ▸ hp) hu.inv hfitr hu.bits
      (by rw [htu.params]; omega) (by omega)
    rw [hdesl, Res.bind_ok, hdesr, Res.bind_ok] at hdes
    have hcnt : cnt + 1 + l.size + r.size = cnt + (CodeTree.node l r).size := by rw [CodeTree.size]; omega
    refine ⟨_, hcnt ▸ hdes, (htu.trans hv (by omega)).putNode _, CodeTree.arenaAt_node.2 ⟨?_, ?_, ?_⟩⟩
    · rw [State.nodeAt_putNode_singleton, if_pos rfl]
    · refine hl.congr fun j hj hj' => ?_
      rw [State.nodeAt_putNode_singleton, if_neg (by omega), hv.kept j hj']
    · refine hr.congr fun j hj _ => ?_
      rw [State.nodeAt_putNode_singleton, if_neg (by omega)]

/-- Where the bits break a tree off des() raises, over the leaves it has read (R271). -/
theorem des_of_breaksOff {cap k : Nat} {bits : List Bool} {items : List (Option Nat)}
    (h : SerialBreaksOff cap bits items k left) (hp : s.params.legal) (hs : s.readerInv) (hbits : s.readerBits = bits)
    (hcap : s.params.nodeCap = cnt + cap) (hd : cap ≤ depth) :
    ∃ t, des depth cnt s = .raised .malformedTree t.br.pos.toNat (cnt + k) t ∧ s.ReadsNodes cnt left t ∧
      Describes HoldsLeaf t.nodeAt cnt items := by
  induction h generalizing s cnt depth with
  | full => exact ⟨s, des_of_full hcap.symm depth, .refl hs hbits, describes_nil⟩
  | noTag =>
    obtain ⟨depth, rfl⟩ := Nat.exists_eq_add_one.2 (show 0 < depth by omega)
    exact ⟨s, des_of_noTag (by omega) hbits, .refl hs hbits, describes_nil⟩
  | shortLeaf _ hshort =>
    obtain ⟨depth, rfl⟩ := Nat.exists_eq_add_one.2 (show 0 < depth by omega)
    obtain ⟨t, hdes, ht⟩ := des_of_shortLeaf (cnt := cnt) (depth := depth) hp hs (by omega) hbits hshort
    exact ⟨t, hdes, ht, describes_nil⟩
  | @inLeft cap k _ _ _ _ ih =>
    obtain ⟨depth, rfl⟩ := Nat.exists_eq_add_one.2 (show 0 < depth by omega)
    obtain ⟨t, ht, hdes⟩ := des_of_internal (depth := depth) hp hs (show cnt < s.params.nodeCap by omega) hbits
    obtain ⟨u, hdesl, hu, hleaves⟩ := ih (cnt := cnt + 1) (depth := depth) (ht.params ▸ hp) ht.inv ht.bits
      (by rw [ht.params]; omega) (by omega)
    refine ⟨u, ?_, ht.trans hu (Nat.le_succ cnt), describes_cons.2 ⟨holdsLeaf_none _, hleaves⟩⟩
    rw [hdes, hdesl, Res.bind_raised, Nat.add_assoc, Nat.add_comm 1]
  | @inRight cap k _ _ _ l hfit _ ih =>
    obtain ⟨depth, rfl⟩ := Nat.exists_eq_add_one.2 (show 0 < depth by omega)
    obtain ⟨t, ht, hdes⟩ := des_of_internal (depth := depth) hp hs (show cnt < s.params.nodeCap by omega) hbits
    obtain ⟨u, hdesl, hu, hl⟩ := des_of_tree (cnt := cnt + 1) (depth := depth) (ht.params ▸ hp) ht.inv hfit ht.bits
      (by rw [ht.params]; omega) (by omega)
    have htu := ht.trans hu (Nat.le_succ cnt)
    obtain ⟨v, hdesr, hv, hleaves⟩ := ih (cnt := cnt + 1 + l.size) (depth := depth) (htu.params ▸ hp) hu.inv hu.bits
      (by rw [htu.params]; omega) (by omega)
    refine ⟨v, ?_, htu.trans hv (by omega), describes_cons.2 ⟨holdsLeaf_none _, describes_append.2 ⟨?_, ?_⟩⟩⟩
    · rw [hdes, hdesl, Res.bind_ok, hdesr, Res.bind_raised]
      congr 1
      omega
    · exact (hl.congr fun j _ hj => hv.kept j hj).holdsLeaf
    · rw [l.length_items]
      exact hleaves

end

/-! ## The command -/

/-- The arm of HUFF_DESERIALIZE (R271). -/
theorem exec_huffDeserialize (s : State) : exec .huffDeserialize s =
    ((huffDeserialize s).bind fun cnt t => .ok { Results.none with r0 := some 0, r1 := some cnt } t).finish := rfl

section
variable {s t : State}

theorem exec_huffDeserialize_of_ok {b : BuiltNode}
    (h : des (s.params.nodeCap + 1) 0 { s with tree := { s.tree with valid := false } } = .ok b t) :
    exec .huffDeserialize s = .next
      (State.complete { t with tree := { root := 0, nodes := Word.ofNat b.cnt, valid := true } }
        { Results.none with r0 := some 0, r1 := some b.cnt }) := by
  rw [exec_huffDeserialize, huffDeserialize, h, Res.bind_ok, Res.bind_ok, Res.finish_ok]

theorem exec_huffDeserialize_of_raised {e : EngineError} {pos sym : Nat}
    (h : des (s.params.nodeCap + 1) 0 { s with tree := { s.tree with valid := false } } = .raised e pos sym t) :
    exec .huffDeserialize s = .next (t.raise e pos sym) := by
  rw [exec_huffDeserialize, huffDeserialize, h, Res.bind_raised, Res.bind_raised, Res.finish_raised]

end

/-- Settles O42: the reader's bits begin with a tree that NODE holds, which des() rebuilds, or they break a tree off. -/
theorem huffDeserializeRebuilds : Obligations.HuffDeserializeRebuilds := by
  intro s hp hs
  refine ⟨fun tree rest hbits hsize hfit => ?_, fun hnone => ?_⟩
  · obtain ⟨t, hdes, ht, harena⟩ := des_of_tree (s := { s with tree := { s.tree with valid := false } }) (cnt := 0)
      (depth := s.params.nodeCap + 1) hp hs hfit hbits ((Nat.zero_add _).trans_le hsize) (Nat.le_succ_of_le hsize)
    obtain ⟨-, -, -, -, -, hcap⟩ := hp
    have hstored := harena.storedAt hfit (by omega)
    obtain ⟨br, node, rfl⟩ := ht.frame
    refine ⟨_, exec_huffDeserialize_of_ok hdes, State.tree?_of_stored (root := 0) hstored rfl (by decide) hsize,
      ht.bits, ht.stop, fun j w hw => ?_, ?_⟩
    · have := harena j w hw
      rwa [Nat.zero_add] at this
    · rw [Nat.zero_add]; rfl
  · rcases serialBits_or_breaksOff s.params.nodeCap s.readerBits with
      ⟨tree, rest, hbits, hfit, hsize⟩ | ⟨items, k, left, h⟩
    · exact absurd hsize (Nat.not_le.2 (hnone tree rest hbits hfit))
    · obtain ⟨t, hdes, ht, hleaves⟩ := des_of_breaksOff (s := { s with tree := { s.tree with valid := false } }) (cnt := 0)
        (depth := s.params.nodeCap + 1) h hp hs rfl (Nat.zero_add _).symm (Nat.le_succ _)
      obtain ⟨br, node, rfl⟩ := ht.frame
      refine ⟨_, items, k, left, h.treeBreaksOff, exec_huffDeserialize_of_raised hdes, ht.bits, ht.stop,
        fun j sym hj => ?_, ?_⟩
      · have := hleaves j (some sym) hj sym rfl
        rwa [Nat.zero_add] at this
      · rw [Nat.zero_add]; rfl

end Sys2Proof.Machine
end

section
/-! HUFF_DECODE_SYM: the descent follows a leaf's code, or the bits end inside it (R273, R274). -/

namespace Sys2Proof.Machine

/-! ## Edges -/

/-- The child of an internal node along an edge: 0 (false) goes to the left and 1 (true) to the right (R244). -/
def CodeTree.child (l r : CodeTree) (b : Bool) : CodeTree := if b then r else l

/-- A leaf below an internal node is one below a child, its code an edge longer (R244). -/
theorem CodeTree.mem_paths_node {l r : CodeTree} {sym : Nat} {path : List Bool} :
    (sym, path) ∈ (CodeTree.node l r).paths ↔ ∃ b h, path = b :: h ∧ (sym, h) ∈ (child l r b).paths := by
  simp [paths, child, eq_comm, and_comm]

/-- A property of every leaf that an internal node has when its children have it holds of every tree. -/
theorem CodeTree.edge_induction {P : CodeTree → Prop} (leaf : ∀ sym, P (.leaf sym))
    (node : ∀ l r, (∀ b, P (child l r b)) → P (.node l r)) (tree : CodeTree) : P tree := by
  induction tree with
  | leaf sym => exact leaf sym
  | node l r ihl ihr => exact node l r fun b => by cases b <;> assumption

section
variable {s : State} {depth i : Nat}

theorem State.ofWord_of_treeAt_leaf {sym : Nat} (h : s.treeAt depth i = some (.leaf sym)) :
    NodeEntry.ofWord (s.nodeAt i) = .leaf sym := by
  cases depth with
  | zero => cases h
  | succ depth =>
    rw [State.treeAt] at h
    split at h
    · rename_i hw
      cases h
      exact hw
    · split at h <;> cases h

/-- Below an internal node its entry leads along each edge to that child (R106). -/
theorem State.ofWord_of_treeAt_node {l r : CodeTree} (h : s.treeAt depth i = some (.node l r)) :
    ∃ depth' sym il ir, NodeEntry.ofWord (s.nodeAt i) = .internal sym il ir ∧
      ∀ b : Bool, s.treeAt depth' (if b.toNat = 0 then il else ir) = some (CodeTree.child l r b) := by
  cases depth with
  | zero => cases h
  | succ depth =>
    rw [State.treeAt] at h
    split at h
    · cases h
    · rename_i sym il ir hw
      split at h
      · rename_i hl hr
        cases h
        exact ⟨depth, sym, il, ir, hw, fun b => by cases b <;> assumption⟩
      · cases h

end

/-! ## The descent -/

/-- Taking bits leaves the tree in NODE. -/
theorem State.Consumed.treeAt {s t : State} {n : Nat} (h : s.Consumed t n) (depth i : Nat) :
    t.treeAt depth i = s.treeAt depth i := by
  refine State.treeAt_congr (fun j => ?_) depth i
  obtain ⟨_, rfl⟩ := h.frame
  rfl

section
variable {s : State} {tree : CodeTree} {fuel depth i d : Nat} {bits rest : List Bool}

/-- The bits end at an internal node (R273). -/
theorem descend_of_nil {l r : CodeTree} (htree : s.treeAt depth i = some (.node l r)) (hbits : s.readerBits = []) :
    descend (fuel + 1) (NodeEntry.ofWord (s.nodeAt i)) d s = .raised .malformedTree s.br.pos.toNat d s := by
  obtain ⟨_, sym, il, ir, hw, -⟩ := State.ofWord_of_treeAt_node htree
  rw [hw, descend, readBits_of_short 1 s (by rw [hbits]; exact Nat.one_pos), Res.raiseAs_raised, Res.bind_raised]

/-- An edge takes a bit and leads to the child in NODE (R273). -/
theorem descend_of_cons {l r : CodeTree} {b : Bool} (hp : s.params.legal) (hs : s.readerInv)
    (htree : s.treeAt depth i = some (.node l r)) (hbits : s.readerBits = b :: rest) :
    ∃ t depth' i', s.Consumed t 1 ∧ t.readerBits = rest ∧ t.treeAt depth' i' = some (CodeTree.child l r b) ∧
      descend (fuel + 1) (NodeEntry.ofWord (s.nodeAt i)) d s =
        descend fuel (NodeEntry.ofWord (t.nodeAt i')) (d + 1) t := by
  obtain ⟨depth', sym, il, ir, hw, hchild⟩ := State.ofWord_of_treeAt_node htree
  obtain ⟨t, hread, hc, hrest⟩ := readBits_of_cons hp hs hbits
  refine ⟨t, depth', _, hc, hrest, (hc.treeAt _ _).trans (hchild b), ?_⟩
  rw [hw, descend, hread, Res.raiseAs_ok, Res.bind_ok]

/-- On a leaf's code the descent ends at that leaf (R273, R274). -/
theorem descend_of_path {sym : Nat} (hp : s.params.legal) (hs : s.readerInv) (htree : s.treeAt depth i = some tree)
    (hpath : (sym, bits) ∈ tree.paths) (hbits : s.readerBits = bits ++ rest) (hfuel : bits.length < fuel) :
    ∃ t, descend fuel (NodeEntry.ofWord (s.nodeAt i)) d s = .ok (sym, d + bits.length) t ∧ s.Consumed t bits.length := by
  induction tree using CodeTree.edge_induction generalizing s fuel depth i d bits with
  | leaf sym' =>
    cases List.mem_singleton.1 hpath
    obtain ⟨fuel, rfl⟩ := Nat.exists_eq_add_one.2 hfuel
    exact ⟨s, by rw [State.ofWord_of_treeAt_leaf htree]; rfl, .refl hs⟩
  | node l r ih =>
    obtain ⟨b, bits, rfl, hchild⟩ := CodeTree.mem_paths_node.1 hpath
    obtain ⟨fuel, rfl⟩ := Nat.exists_eq_add_one.2 (Nat.zero_lt_of_lt hfuel)
    obtain ⟨t, depth', i', hc, hrest, htree', hstep⟩ := descend_of_cons (fuel := fuel) (d := d) hp hs htree hbits
    obtain ⟨u, hu, hc'⟩ := ih b (d := d + 1) (hc.params ▸ hp) hc.inv htree' hchild hrest (Nat.lt_of_succ_lt_succ hfuel)
    rw [List.length_cons, Nat.add_comm bits.length, ← Nat.add_assoc]
    exact ⟨u, hstep.trans hu, hc.trans hc'⟩

/-- On bits that begin with no leaf's code the descent takes them all and raises (R273). -/
theorem descend_of_no_path (hp : s.params.legal) (hs : s.readerInv) (htree : s.treeAt depth i = some tree)
    (hnone : ∀ x ∈ tree.paths, ¬x.2 <+: bits) (hbits : s.readerBits = bits) (hfuel : bits.length < fuel) :
    ∃ t, descend fuel (NodeEntry.ofWord (s.nodeAt i)) d s =
      .raised .malformedTree t.br.pos.toNat (d + bits.length) t ∧ s.Consumed t bits.length := by
  induction tree using CodeTree.edge_induction generalizing s fuel depth i d bits with
  | leaf sym => exact absurd List.nil_prefix (hnone (sym, []) (List.mem_singleton_self _))
  | node l r ih =>
    obtain ⟨fuel, rfl⟩ := Nat.exists_eq_add_one.2 (Nat.zero_lt_of_lt hfuel)
    cases bits with
    | nil => exact ⟨s, descend_of_nil htree hbits, .refl hs⟩
    | cons b bits =>
      obtain ⟨t, depth', i', hc, hrest, htree', hstep⟩ := descend_of_cons (fuel := fuel) (d := d) hp hs htree hbits
      have hchild : ∀ x ∈ (CodeTree.child l r b).paths, ¬x.2 <+: bits := fun x hx hprefix =>
        hnone (x.1, b :: x.2) (CodeTree.mem_paths_node.2 ⟨b, x.2, rfl, hx⟩) (List.cons_prefix_cons.2 ⟨rfl, hprefix⟩)
      obtain ⟨u, hu, hc'⟩ := ih b (d := d + 1) (hc.params ▸ hp) hc.inv htree' hchild hrest (Nat.lt_of_succ_lt_succ hfuel)
      rw [List.length_cons, Nat.add_comm bits.length, ← Nat.add_assoc]
      exact ⟨u, hstep.trans hu, hc.trans hc'⟩

end

/-! ## The command -/

section
variable {s t : State}

/-- The arm of HUFF_DECODE_SYM (R273). -/
theorem exec_huffDecodeSym (s : State) : exec .huffDecodeSym s = (if !s.tree.valid then Res.raised .noTree 0 0 s
    else (decodeSym s).bind fun r t => .ok { Results.none with r0 := some r.1, r1 := some r.2 } t).finish := rfl

theorem exec_huffDecodeSym_of_invalid (hv : s.tree.valid = false) : exec .huffDecodeSym s = .next (s.raise .noTree 0 0) := by
  rw [exec_huffDecodeSym, hv, Bool.not_false, if_pos rfl, Res.finish_raised]

theorem exec_huffDecodeSym_of_ok {sym d : Nat} (hv : s.tree.valid = true) (h : decodeSym s = .ok (sym, d) t) :
    exec .huffDecodeSym s = .next (t.complete { Results.none with r0 := some sym, r1 := some d }) := by
  rw [exec_huffDecodeSym, hv, Bool.not_true, if_neg Bool.false_ne_true, h, Res.bind_ok, Res.finish_ok]

theorem exec_huffDecodeSym_of_raised {e : EngineError} {pos sym : Nat} (hv : s.tree.valid = true)
    (h : decodeSym s = .raised e pos sym t) : exec .huffDecodeSym s = .next (t.raise e pos sym) := by
  rw [exec_huffDecodeSym, hv, Bool.not_true, if_neg Bool.false_ne_true, h, Res.bind_raised, Res.finish_raised]

end

/-- Settles O43: the descent follows the code to its leaf, or takes all bits when they begin with no code. -/
theorem huffDecodeSymFollowsCode : Obligations.HuffDecodeSymFollowsCode := by
  intro s hp hs
  refine ⟨fun tree sym h rest hv htree hpath hbits => ?_, fun tree hv htree hnone => ?_, exec_huffDecodeSym_of_invalid⟩
  · have hfuel : h.length < s.bitsLeft + 1 := by
      rw [← s.readerBits_length, hbits, List.length_append]
      omega
    obtain ⟨t, hdescend, hc⟩ := descend_of_path hp hs htree hpath hbits hfuel (d := 0)
    rw [Nat.zero_add] at hdescend
    refine ⟨_, exec_huffDecodeSym_of_ok hv hdescend, ?_, hc.stop, ?_⟩
    · exact hc.bits.trans (by rw [hbits, List.drop_left])
    · obtain ⟨_, rfl⟩ := hc.frame
      rfl
  · obtain ⟨t, hdescend, hc⟩ := descend_of_no_path hp hs htree hnone rfl (d := 0)
      (Nat.lt_succ_of_le s.readerBits_length.le)
    rw [Nat.zero_add] at hdescend
    have hexec := exec_huffDecodeSym_of_raised hv hdescend
    have hbits := hc.bits
    obtain ⟨_, rfl⟩ := hc.frame
    exact ⟨_, hexec, hbits.trans List.drop_length, hc.stop, rfl⟩

end Sys2Proof.Machine
end

section
/-! The symbols of the decode loop, case by case: each in its place, out of place, and the output they leave (R295 to R299). -/

namespace Sys2Proof.Machine

/-! ## Which symbol runs -/

/-- A symbol of R110's gaps decodes to no instruction. -/
theorem decodeSymbol_of_unassigned {sym : Nat} (h : (286 ≤ sym ∧ sym ≤ 299) ∨ 332 ≤ sym) :
    ∃ r, decodeSymbol sym = .error r := by
  by_cases hlt : sym < 512
  · exact (unassignedWordsAreRejected.2 sym hlt).2 h
  · rw [decodeSymbol, if_neg (by omega), if_pos (by omega)]
    exact ⟨_, rfl⟩

theorem lengthSymbols_eq : lengthSymbolTable.map Prod.fst = List.range' 257 29 := rfl

theorem distanceSymbols_eq : distanceSymbolTable.map Prod.fst = List.range' 300 32 := rfl

theorem exists_mem_lengthSymbolTable {sym : Nat} (h : 257 ≤ sym) (h' : sym ≤ 285) : ∃ i, (sym, i) ∈ lengthSymbolTable := by
  obtain ⟨⟨_, i⟩, hmem, rfl⟩ := List.mem_map.1 (lengthSymbols_eq ▸ List.mem_range'_1.2 ⟨h, by omega⟩)
  exact ⟨i, hmem⟩

theorem exists_mem_distanceSymbolTable {sym : Nat} (h : 300 ≤ sym) (h' : sym ≤ 331) :
    ∃ i, (sym, i) ∈ distanceSymbolTable := by
  obtain ⟨⟨_, i⟩, hmem, rfl⟩ := List.mem_map.1 (distanceSymbols_eq ▸ List.mem_range'_1.2 ⟨h, by omega⟩)
  exact ⟨i, hmem⟩

section
variable {s t : State} {sym : Nat} {i : Instr}

theorem runSymbol_of_ok (h : decodeSymbol sym = .ok i) : runSymbol sym s = exec i s := by
  simp only [runSymbol, h]

theorem runSymbol_of_unassigned (h : (286 ≤ sym ∧ sym ≤ 299) ∨ 332 ≤ sym) : runSymbol sym s = unassignedSymbol sym s := by
  obtain ⟨r, hr⟩ := decodeSymbol_of_unassigned h
  simp only [runSymbol, hr]

theorem decodeSymbol_of_mem_length (h : (sym, i) ∈ lengthSymbolTable) : decodeSymbol sym = .ok i :=
  decodeSymbol_of_mem (List.mem_append_left _ (List.mem_cons_of_mem _ h))

theorem decodeSymbol_of_mem_distance (h : (sym, i) ∈ distanceSymbolTable) : decodeSymbol sym = .ok i :=
  decodeSymbol_of_mem (List.mem_append_right _ h)

theorem decodeSymbol_eos : decodeSymbol 256 = .ok .eos := decodeSymbol_of_mem List.mem_cons_self

theorem runSymbol_length (h : 257 ≤ sym) (h' : sym ≤ 285) : runSymbol sym s = execLength sym s := by
  obtain ⟨i, hi⟩ := exists_mem_lengthSymbolTable h h'
  rw [runSymbol_of_ok (decodeSymbol_of_mem_length hi), exec_of_mem_lengthSymbolTable s _ hi]

theorem runSymbol_distance (h : 300 ≤ sym) (h' : sym ≤ 331) : runSymbol sym s = execDistance sym s := by
  obtain ⟨i, hi⟩ := exists_mem_distanceSymbolTable h h'
  rw [runSymbol_of_ok (decodeSymbol_of_mem_distance hi), exec_of_mem_distanceSymbolTable s _ hi]

theorem runSymbol_lit (v : Byte) : runSymbol v.toNat s = execLit v s := runSymbol_of_ok (decodeSymbol_lit v)

theorem runSymbol_eos : runSymbol 256 s = execEos s := runSymbol_of_ok decodeSymbol_eos

/-! ## Symbols in primary position -/

theorem asPrimary_of_none (h : s.dec.pendingLen = none) (sym : Nat) (own : Host.Outcome State Fault Refusal) :
    asPrimary sym s own = own := by
  rw [asPrimary, h]

theorem asPrimary_of_some {len : Nat} (h : s.dec.pendingLen = some len) (sym : Nat)
    (own : Host.Outcome State Fault Refusal) :
    asPrimary sym s own = .next (s.raise .synchronizationError s.outLen.toNat sym) := by
  rw [asPrimary, h]
  rfl

/-- Before the output is complete LIT appends its byte (R296). -/
theorem execLit_of_ne (hwait : s.dec.pendingLen = none) (h : s.outLen.toNat ≠ s.dec.len) (v : Byte) :
    execLit v s = .next (s.appendByte v) :=
  (asPrimary_of_none hwait _ _).trans (if_neg h)

theorem execLit_of_eq (hwait : s.dec.pendingLen = none) (h : s.outLen.toNat = s.dec.len) (v : Byte) :
    execLit v s = .next (s.raise .lengthMismatch s.outLen.toNat v.toNat) :=
  (asPrimary_of_none hwait _ _).trans (if_pos h)

/-- Settles O47: LIT in its place, before and at the end of the output. -/
theorem literalAppends : Obligations.LiteralAppends := by
  intro s v hwait
  refine ⟨fun h => ⟨_, (execLit_of_ne hwait h v).trans ?_, s.dstAt_appendByte v⟩, fun h => execLit_of_eq hwait h v⟩
  rw [State.appendByte, Word.ofNat_add_toNat]
  rfl

/-- At OUT_LEN = L EOS completes DECOMPRESS (R294, R297). -/
theorem execEos_of_eq (hwait : s.dec.pendingLen = none) (h : s.outLen.toNat = s.dec.len) :
    execEos s = .next (s.afterDone
      { r0 := Word.ofNat s.dec.len, r1 := Word.ofNat s.dec.dataType, r2 := Word.ofNat s.dec.auxWidth, r3 := s.br.pos }) := by
  rw [execEos, asPrimary_of_none hwait, if_neg (not_not.2 h), State.complete_eq_afterDone, Quad.setResults_mk]
  simp only [setResult_some, Word.ofNat_toNat]

theorem execEos_of_ne (hwait : s.dec.pendingLen = none) (h : s.outLen.toNat ≠ s.dec.len) :
    execEos s = .next (s.raise .lengthMismatch s.outLen.toNat 256) :=
  (asPrimary_of_none hwait _ _).trans (if_pos h)

/-- Settles O48: EOS in its place, at and before the end of the output. -/
theorem eosCompletes : Obligations.EosCompletes := fun _ hwait => ⟨execEos_of_eq hwait, execEos_of_ne hwait⟩

/-! ## Lengths -/

/-- With its extra bits there, a length symbol takes them and its length waits (R298). -/
theorem execLength_of_enough {lb le : Nat} (hp : s.params.legal) (hs : s.readerInv) (hwait : s.dec.pendingLen = none)
    (hbase : codeToLengthBase sym = some (lb, le)) (h : le ≤ s.readerBits.length) :
    ∃ t, s.Consumed t le ∧ execLength sym s =
      .next { t with dec := { s.dec with pendingLen := some (lb + valBits (s.readerBits.take le)) } } := by
  obtain ⟨t, hread, hc⟩ := readBits_consumes hp hs h
  refine ⟨t, hc, ?_⟩
  rw [execLength, asPrimary_of_none hwait, hbase]
  dsimp only
  rw [hread, Res.raiseAs_ok, Res.bind_ok, Res.goOn_ok]
  obtain ⟨_, rfl⟩ := hc.frame
  rfl

theorem execLength_of_short {lb le : Nat} (hwait : s.dec.pendingLen = none)
    (hbase : codeToLengthBase sym = some (lb, le)) (h : s.readerBits.length < le) :
    execLength sym s = .next (s.raise .endOfStream s.outLen.toNat sym) := by
  rw [execLength, asPrimary_of_none hwait, hbase]
  dsimp only
  rw [readBits_of_short le s h, Res.raiseAs_raised, Res.bind_raised, Res.goOn_raised]

/-- Settles O49: a length symbol with and without its extra bits. -/
theorem lengthSymbolsRead : Obligations.LengthSymbolsRead := by
  intro s sym lb le i hp hs hwait hi hbase
  rw [exec_of_mem_lengthSymbolTable s _ hi]
  refine ⟨fun h => ?_, execLength_of_short hwait hbase⟩
  obtain ⟨t, hc, hexec⟩ := execLength_of_enough hp hs hwait hbase h
  refine ⟨_, hexec, hc.bits, hc.stop, ?_⟩
  obtain ⟨_, rfl⟩ := hc.frame
  rfl

/-! ## Distances -/

/-- A length that waits, and a row of the distance table: the extra bits, then the end of the back-reference (R298). -/
theorem execDistance_of_wait {len db de : Nat} (hwait : s.dec.pendingLen = some len)
    (hbase : codeToDistanceBase sym = some (db, de)) : execDistance sym s =
      (((readBits de s).raiseAs .endOfStream s.outLen.toNat sym).bind fun x s1 => copyBack len (db + x) s1).goOn := by
  simp only [execDistance, hwait, hbase]

theorem execDistance_of_short {len db de : Nat} (hwait : s.dec.pendingLen = some len)
    (hbase : codeToDistanceBase sym = some (db, de)) (h : s.readerBits.length < de) :
    execDistance sym s = .next (s.raise .endOfStream s.outLen.toNat sym) := by
  rw [execDistance_of_wait hwait hbase, readBits_of_short de s h, Res.raiseAs_raised, Res.bind_raised, Res.goOn_raised]

/-- With its extra bits there, a distance symbol takes them and ends the back-reference (R298). -/
theorem execDistance_of_enough {len db de : Nat} (hp : s.params.legal) (hs : s.readerInv)
    (hwait : s.dec.pendingLen = some len) (hbase : codeToDistanceBase sym = some (db, de))
    (h : de ≤ s.readerBits.length) :
    ∃ t, s.Consumed t de ∧ execDistance sym s = (copyBack len (db + valBits (s.readerBits.take de)) t).goOn := by
  obtain ⟨t, hread, hc⟩ := readBits_consumes hp hs h
  exact ⟨t, hc, by rw [execDistance_of_wait hwait hbase, hread, Res.raiseAs_ok, Res.bind_ok]⟩

theorem execDistance_of_none (h : s.dec.pendingLen = none) (sym : Nat) :
    execDistance sym s = .next (s.raise .synchronizationError s.outLen.toNat sym) := by
  simp only [execDistance, h]
  rfl

section
variable {len dist : Nat}

theorem copyBack_of_far (h : s.outLen.toNat < dist) :
    copyBack len dist s = .raised .invalidBackReference s.outLen.toNat dist s := if_pos h

theorem copyBack_of_long (h : dist ≤ s.outLen.toNat) (hlen : s.dec.len < s.outLen.toNat + len) :
    copyBack len dist s = .raised .lengthMismatch s.outLen.toNat len s :=
  (if_neg (Nat.not_lt.2 h)).trans (if_pos hlen)

theorem copyBack_of_fits (h : dist ≤ s.outLen.toNat) (hlen : s.outLen.toNat + len ≤ s.dec.len) :
    copyBack len dist s = .ok () { copyBytes dist len s with dec := { s.dec with pendingLen := none } } :=
  (if_neg (Nat.not_lt.2 h)).trans (if_neg (Nat.not_lt.2 hlen))

theorem State.appendByte_outLen_toNat (v : Byte) (h : s.outLen.toNat + 1 < 2 ^ 64) :
    (s.appendByte v).outLen.toNat = s.outLen.toNat + 1 := Word.toNat_ofNat_of_lt h

theorem add_one_mod_cases {dist : Nat} (h : 0 < dist) (j : Nat) :
    (j + 1) % dist = j % dist + 1 ∧ j % dist + 1 < dist ∨ (j + 1) % dist = 0 ∧ j % dist + 1 = dist := by
  have hmod : (j + 1) % dist = (j % dist + 1) % dist := by rw [Nat.mod_add_mod]
  rcases (Nat.succ_le_of_lt (Nat.mod_lt j h)).lt_or_eq with hlt | heq
  · exact .inl ⟨hmod.trans (Nat.mod_eq_of_lt hlt), hlt⟩
  · exact .inr ⟨hmod.trans (Nat.mod_eq_zero_of_dvd heq.symm.dvd), heq⟩

/-- The copy repeats the last `dist` bytes (R298). -/
theorem copyBytes_dstAt (hd : 1 ≤ dist) (h : dist ≤ s.outLen.toNat) (hlt : s.outLen.toNat + len < 2 ^ 64) {j : Nat}
    (hj : j < len) :
    (copyBytes dist len s).dstAt (s.outLen.toNat + j) = s.dstAt (s.outLen.toNat - dist + j % dist) := by
  induction len generalizing s j with
  | zero => cases hj
  | succ len ih =>
    have hout := State.appendByte_outLen_toNat (s := s) (s.dstAt (s.outLen.toNat - dist)) (by omega)
    cases j with
    | zero =>
      rw [copyBytes, copyBytes_stores dist len (by omega) (by omega), State.dstAt_appendByte, Nat.add_zero, if_pos rfl,
        Nat.zero_mod, Nat.add_zero]
    | succ j =>
      have hcopy := ih (s := s.appendByte (s.dstAt (s.outLen.toNat - dist))) (by omega) (by omega)
        (Nat.lt_of_succ_lt_succ hj)
      rw [hout, Nat.add_assoc, Nat.add_comm 1, State.dstAt_appendByte] at hcopy
      rw [copyBytes, hcopy]
      rcases add_one_mod_cases hd j with ⟨hmod, hmore⟩ | ⟨hmod, hlast⟩
      · rw [hmod, if_neg (by omega)]
        congr 1
        omega
      · rw [hmod, if_pos (by omega), Nat.add_zero]

/-- The copy leaves all but DST and OUT_LEN, which has moved on by the length (R298). -/
theorem copyBytes_eq (hlt : s.outLen.toNat + len < 2 ^ 64) : copyBytes dist len s =
    { s with dst := (copyBytes dist len s).dst, outLen := Word.ofNat (s.outLen.toNat + len) } := by
  have hout := copyBytes_outLen dist len s hlt
  obtain ⟨dst, outLen, h⟩ := copyBytes_frame dist len s
  rw [h] at hout ⊢
  rw [← hout, Word.ofNat_toNat]

end

/-- Settles O50: a distance symbol with and without its extra bits, and each check of the back-reference. -/
theorem distanceSymbolsCopy : Obligations.DistanceSymbolsCopy := by
  intro s sym db de len i hp hs hwait hL hi hbase out dist
  have hdst : s.params.dstSize ≤ 2 ^ 40 := by
    obtain ⟨-, -, -, hdst, -⟩ := hp
    exact hdst
  have hd : 1 ≤ dist := by
    obtain ⟨db', de', hbase', hdb, -⟩ := codeToDistanceBase_of_mem _ hi
    cases hbase.symm.trans hbase'
    omega
  have hread (h : de ≤ s.readerBits.length) : ∃ br, ({ s with br := br } : State).readerBits = s.readerBits.drop de ∧
      br.stop = s.br.stop ∧ execDistance sym s = (copyBack len dist { s with br := br }).goOn := by
    obtain ⟨t, hc, hexec⟩ := execDistance_of_enough hp hs hwait hbase h
    obtain ⟨hbits, hstop⟩ := And.intro hc.bits hc.stop
    obtain ⟨br, rfl⟩ := hc.frame
    exact ⟨br, hbits, hstop, hexec⟩
  rw [exec_of_mem_distanceSymbolTable s _ hi]
  refine ⟨fun h hfar hfit => ?_, fun h hfar => ?_, fun h hfar hlong => ?_, execDistance_of_short hwait hbase⟩
  all_goals obtain ⟨br, hbits, hstop, hexec⟩ := hread h
  · have hlt : out + len < 2 ^ 64 := by omega
    have hcopy := copyBytes_eq (s := { s with br := br }) (dist := dist) hlt
    refine ⟨_, hexec.trans (congrArg Res.goOn (copyBack_of_fits (s := { s with br := br }) hfar hfit)), ?_, ?_, ?_,
      fun j hj => copyBytes_dstAt (s := { s with br := br }) hd hfar hlt hj,
      fun j hj => copyBytes_stores (s := { s with br := br }) dist len hlt hj⟩
    · rw [hcopy]; exact hbits
    · rw [hcopy]; exact hstop
    · rw [hcopy]
  · exact ⟨_, hexec.trans (congrArg Res.goOn (copyBack_of_far (s := { s with br := br }) hfar)), hbits, hstop, rfl⟩
  · exact ⟨_, hexec.trans (congrArg Res.goOn (copyBack_of_long (s := { s with br := br }) hfar hlong)), hbits, hstop, rfl⟩

/-! ## Symbols out of place -/

/-- Where a distance is due no other symbol has its own effect (R298). -/
theorem runSymbol_of_not_distance {len : Nat} (hwait : s.dec.pendingLen = some len) (h : sym < 300 ∨ 331 < sym) :
    runSymbol sym s = .next (s.raise .synchronizationError s.outLen.toNat sym) := by
  by_cases hgap : (286 ≤ sym ∧ sym ≤ 299) ∨ 332 ≤ sym
  · rw [runSymbol_of_unassigned hgap, unassignedSymbol, asPrimary_of_some hwait]
  · by_cases hlit : sym < 256
    · rw [← Nat.mod_eq_of_lt hlit, ← BitVec.toNat_ofNat sym 8, runSymbol_lit, execLit, asPrimary_of_some hwait]
    · rcases (show sym = 256 ∨ 257 ≤ sym by omega) with rfl | hlen
      · rw [runSymbol_eos, execEos, asPrimary_of_some hwait]; rfl
      · rw [runSymbol_length hlen (by omega), execLength, asPrimary_of_some hwait]

/-- In primary position a symbol of R110's gaps is unsupported (R299). -/
theorem unassignedSymbol_of_none (hwait : s.dec.pendingLen = none) (sym : Nat) :
    unassignedSymbol sym s = .next (s.raise .unsupportedSymbol s.outLen.toNat sym) := asPrimary_of_none hwait _ _

/-- Settles O51: a distance without a length, any other symbol where a distance is due, and the gaps of R110. -/
theorem symbolsOutOfPlaceRaise : Obligations.SymbolsOutOfPlaceRaise := by
  intro s sym _
  refine ⟨fun hwait h h' => ?_, fun hwait h => ?_, fun hwait h => ?_⟩
  · exact (runSymbol_distance h h').trans (execDistance_of_none hwait sym)
  · obtain ⟨len, hlen⟩ := Option.ne_none_iff_exists'.1 hwait
    exact runSymbol_of_not_distance hlen h
  · exact (runSymbol_of_unassigned h).trans (unassignedSymbol_of_none hwait sym)

/-! ## A step of the decode loop -/

theorem unassignedSymbol_eq (sym : Nat) (s : State) : unassignedSymbol sym s = .next (s.raise
    (if s.dec.pendingLen = none then .unsupportedSymbol else .synchronizationError) s.outLen.toNat sym) := by
  cases h : s.dec.pendingLen with
  | none => rw [unassignedSymbol_of_none h, if_pos rfl]
  | some len => rw [unassignedSymbol, asPrimary_of_some h, if_neg nofun]

theorem decodePass_of_ok {d : Nat} (h : decodeSym s = .ok (sym, d) t) : decodePass s = runSymbol sym t := by
  simp only [decodePass, h, Res.atOutLen_ok]

theorem decodePass_of_raised {e : EngineError} {pos : Nat} (h : decodeSym s = .raised e pos sym t) :
    decodePass s = .next (t.raise e t.outLen.toNat sym) := by
  simp only [decodePass, h, Res.atOutLen_raised]

theorem engineStep_of_decoding (h : s.phase = .decoding) : engineStep s = decodePass s := by
  simp only [engineStep, h]

end

/-- Settles O5: whichever turn lets the Engine move leaves the phase, OUT_LEN and what decodeSym reads as they are. -/
theorem stepRunsDecodedSymbol : Obligations.StepRunsDecodedSymbol := by
  intro s s0 hmove hp
  obtain ⟨hp0, hout⟩ : s0.phase = .decoding ∧ s0.outLen = s.outLen := by
    rcases hmove with ⟨_, _, rfl⟩ | ⟨_, _, rfl⟩ | ⟨_, rfl⟩ <;> exact ⟨hp, rfl⟩
  rw [step_of_engineMovesFrom s s0 hmove ((State.busy_eq_true_iff s).2 (by simp [hp])), engineStep_of_decoding hp0]
  refine ⟨fun sym d t i h hi => ?_, fun sym d t h hgap => ?_, fun e pos sym t h => ?_, decodeSym_ends s0⟩
  · rw [decodePass_of_ok h, runSymbol_of_ok hi]
  · rw [decodePass_of_ok h, runSymbol_of_unassigned hgap, unassignedSymbol_eq]
    rfl
  · rcases decodeSym_cases s0 with ⟨_, _, hok⟩ | ⟨_, _, hraised⟩
    · cases hok.symm.trans h
    · rw [decodePass_of_raised h]
      cases hraised.symm.trans h
      exact ⟨rfl, hout, rfl⟩

end Sys2Proof.Machine
end

section
/-! DECOMPRESS up to its decode loop: the header's checks, the tree rebuilt, and the bits that hold none (R294, R271). -/

namespace Sys2Proof.Machine

/-- The current tree depends on TREE_ROOT, NODE and NODE_CAP alone (R106). -/
theorem State.tree?_congr {s t : State} (hnode : ∀ j, t.nodeAt j = s.nodeAt j) (htree : t.tree = s.tree)
    (hparams : t.params = s.params) : t.tree? = s.tree? := by
  rw [State.tree?, State.tree?, State.treeAt_congr hnode, hparams, htree]

/-! ## HUFF_DESERIALIZE as a rule -/

section
variable {s : State}

theorem huffDeserialize_of_ok {b : BuiltNode} {t : State}
    (h : des (s.params.nodeCap + 1) 0 { s with tree := { s.tree with valid := false } } = .ok b t) :
    huffDeserialize s = .ok b.cnt { t with tree := { root := 0, nodes := Word.ofNat b.cnt, valid := true } } := by
  rw [huffDeserialize, h, Res.bind_ok]

theorem huffDeserialize_of_raised {e : EngineError} {pos sym : Nat} {t : State}
    (h : des (s.params.nodeCap + 1) 0 { s with tree := { s.tree with valid := false } } = .raised e pos sym t) :
    huffDeserialize s = .raised e pos sym t := by
  rw [huffDeserialize, h, Res.bind_raised]

/-- On the bits of a tree that NODE holds, HUFF_DESERIALIZE leaves that tree and the bits behind it (R271). -/
theorem huffDeserialize_of_tree {tree : CodeTree} {rest : List Bool} (hp : s.params.legal) (hs : s.readerInv)
    (hbits : s.readerBits = tree.serialBits ++ rest) (hsize : tree.size ≤ s.params.nodeCap)
    (hfit : tree.symbolsFit = true) :
    ∃ t, huffDeserialize s = .ok tree.size t ∧ t.tree? = some tree ∧ t.readerInv ∧ t.readerBits = rest ∧
      t.br.stop = s.br.stop ∧
      t = { s with br := t.br, node := t.node, tree := { root := 0, nodes := Word.ofNat tree.size, valid := true } } := by
  obtain ⟨t, hdes, ht, harena⟩ := des_of_tree (s := { s with tree := { s.tree with valid := false } }) (cnt := 0)
    (depth := s.params.nodeCap + 1) hp hs hfit hbits ((Nat.zero_add _).trans_le hsize) (Nat.le_succ_of_le hsize)
  obtain ⟨-, -, -, -, -, hcap⟩ := hp
  have hstored := harena.storedAt hfit (by omega)
  obtain ⟨hinv, hrest, hstop⟩ := And.intro ht.inv (And.intro ht.bits ht.stop)
  obtain ⟨br, node, rfl⟩ := ht.frame
  rw [Nat.zero_add] at hdes
  exact ⟨_, huffDeserialize_of_ok hdes, State.tree?_of_stored (root := 0) hstored rfl (by decide) hsize, hinv, hrest,
    hstop, rfl⟩

/-- On bits that break a tree off HUFF_DESERIALIZE raises, with TREE_VALID = 0 (R271). -/
theorem huffDeserialize_of_breaksOff {bits left : List Bool} {items : List (Option Nat)} {cnt : Nat} (hp : s.params.legal)
    (hs : s.readerInv) (hbits : s.readerBits = bits) (h : SerialBreaksOff s.params.nodeCap bits items cnt left) :
    ∃ t, huffDeserialize s = .raised .malformedTree t.br.pos.toNat cnt t ∧ t.readerBits = left ∧
      t.br.stop = s.br.stop ∧ t = { s with br := t.br, node := t.node, tree := { s.tree with valid := false } } := by
  obtain ⟨t, hdes, ht, -⟩ := des_of_breaksOff (s := { s with tree := { s.tree with valid := false } }) (cnt := 0)
    (depth := s.params.nodeCap + 1) h hp hs hbits (Nat.zero_add _).symm (Nat.le_succ _)
  obtain ⟨hleft, hstop⟩ := And.intro ht.bits ht.stop
  obtain ⟨br, node, rfl⟩ := ht.frame
  rw [Nat.zero_add] at hdes
  exact ⟨_, huffDeserialize_of_raised hdes, hleft, hstop, rfl⟩

/-! ## The header -/

theorem exec_decompress (s : State) : exec .decompress s = (decompress s.arg0 s).goOn := rfl

/-- BR_INIT 9 m, before any byte is read (R294). -/
def State.atBody (s : State) (m : Nat) : State :=
  { s with outLen := 0, br := { pos := Word.ofNat 9, stop := Word.ofNat m, acc := 0, cnt := 0 } }

variable {m : Nat}

/-- What is left to read is the container behind its header (R294). -/
theorem State.atBody_reader (hp : s.params.legal) (hm : m ≤ s.params.srcSize) (h9 : 9 ≤ m) :
    (s.atBody m).readerInv ∧ (s.atBody m).readerBits = s.srcBits 9 m := by
  obtain ⟨t, ht, -, hinv, -, -, hbits⟩ := brInit_reader (s := { s with outLen := 0 }) hp h9 hm
  cases (brInit_of_le 9 m { s with outLen := 0 } h9 hm).symm.trans ht
  exact ⟨hinv, hbits⟩

theorem decompress_of_beyond (h : s.params.srcSize < m) :
    decompress m s = .raised .badArgument 0 m { s with outLen := 0 } := if_pos h

theorem decompress_of_short (hm : m ≤ s.params.srcSize) (h : m < 9) :
    decompress m s = .raised .endOfStream 0 m { s with outLen := 0 } := (if_neg (Nat.not_lt.2 hm)).trans (if_pos h)

theorem decompress_of_large (hm : m ≤ s.params.srcSize) (h9 : 9 ≤ m) (h : s.params.dstSize < s.srcLE32 5) :
    decompress m s = .raised .capacityExceeded 0 (s.srcLE32 5) { s with outLen := 0 } :=
  (if_neg (Nat.not_lt.2 hm)).trans <| (if_neg (Nat.not_lt.2 h9)).trans (if_pos h)

/-- With the header in order, DECOMPRESS rebuilds the tree and enters its loop (R294). -/
theorem decompress_of_header (hm : m ≤ s.params.srcSize) (h9 : 9 ≤ m) (h : s.srcLE32 5 ≤ s.params.dstSize) :
    decompress m s = (huffDeserialize (s.atBody m)).atOutLen.bind fun _ t => .ok () { t with
      phase := .decoding
      dec := { len := s.srcLE32 5, dataType := (t.srcAt 0).toNat, auxWidth := t.srcLE32 1, pendingLen := none } } := by
  refine (if_neg (Nat.not_lt.2 hm)).trans <| (if_neg (Nat.not_lt.2 h9)).trans <| (if_neg (Nat.not_lt.2 h)).trans ?_
  rw [brInit_of_le 9 m { s with outLen := 0 } h9 hm, Res.bind_ok]
  rfl

/-- The start of the decode loop: OUT_LEN = 0, the header's three values, and a tree in NODE (R294; log 4). -/
theorem decompress_of_tree {tree : CodeTree} {rest : List Bool} (hp : s.params.legal) (hm : m ≤ s.params.srcSize)
    (h9 : 9 ≤ m) (h : s.srcLE32 5 ≤ s.params.dstSize) (hbits : s.srcBits 9 m = tree.serialBits ++ rest)
    (hsize : tree.size ≤ s.params.nodeCap) (hfit : tree.symbolsFit = true) :
    ∃ t, decompress m s = .ok () t ∧ t.tree? = some tree ∧ t.readerInv ∧ t.readerBits = rest ∧
      t.br.stop = Word.ofNat m ∧ t = { s with
        outLen := 0, br := t.br, node := t.node
        tree := { root := 0, nodes := Word.ofNat tree.size, valid := true }
        phase := .decoding
        dec := { len := s.srcLE32 5, dataType := (s.srcAt 0).toNat, auxWidth := s.srcLE32 1, pendingLen := none } } := by
  obtain ⟨hinv, hread⟩ := State.atBody_reader hp hm h9
  obtain ⟨t, hdes, htree, htinv, hrest, hstop, hframe⟩ :=
    huffDeserialize_of_tree (s := s.atBody m) hp hinv (hread.trans hbits) hsize hfit
  have hdec := decompress_of_header hm h9 h
  rw [hdes, Res.atOutLen_ok, Res.bind_ok] at hdec
  refine ⟨_, hdec, ?_, htinv, hrest, hstop, ?_⟩
  · rw [← htree]
    exact State.tree?_congr (fun _ => rfl) rfl rfl
  · rw [hframe]
    rfl

/-- Bits that hold no tree end DECOMPRESS at OUT_LEN = 0 (R294, R295). -/
theorem decompress_of_breaksOff {left : List Bool} {items : List (Option Nat)} {cnt : Nat} (hp : s.params.legal)
    (hm : m ≤ s.params.srcSize) (h9 : 9 ≤ m) (h : s.srcLE32 5 ≤ s.params.dstSize)
    (hoff : SerialBreaksOff s.params.nodeCap (s.srcBits 9 m) items cnt left) :
    ∃ t, decompress m s = .raised .malformedTree 0 cnt t ∧ t.readerBits = left ∧ t.br.stop = Word.ofNat m ∧
      t = { s with outLen := 0, br := t.br, node := t.node, tree := { s.tree with valid := false } } := by
  obtain ⟨hinv, hread⟩ := State.atBody_reader hp hm h9
  obtain ⟨t, hdes, hleft, hstop, hframe⟩ := huffDeserialize_of_breaksOff (s := s.atBody m) hp hinv hread hoff
  have hout : t.outLen = 0 := by rw [hframe]; rfl
  have hdec := decompress_of_header hm h9 h
  rw [hdes, Res.atOutLen_raised, Res.bind_raised, hout] at hdec
  exact ⟨t, hdec, hleft, hstop, hframe⟩

/-- Settles O46: the checks in their order; then the bits behind the header begin with a tree that NODE holds, or break one
off. -/
theorem decompressStarts : Obligations.DecompressStarts := by
  intro s hp m le32
  refine ⟨fun h => ?_, fun hm h => ?_, fun hm h9 h => ?_, fun hm h9 h tree rest hbits hsize hfit => ?_,
    fun hm h9 h hnone => ?_⟩
  · exact congrArg Res.goOn (decompress_of_beyond h)
  · exact congrArg Res.goOn (decompress_of_short hm h)
  · exact congrArg Res.goOn (decompress_of_large hm h9 h)
  · obtain ⟨t, hdec, htree, -, hrest, hstop, hframe⟩ := decompress_of_tree hp hm h9 h hbits hsize hfit
    exact ⟨t, congrArg Res.goOn hdec, htree, hrest, hstop, hframe⟩
  · rcases serialBits_or_breaksOff s.params.nodeCap (s.srcBits 9 m) with
      ⟨tree, rest, hbits, hfit, hsize⟩ | ⟨items, cnt, left, hoff⟩
    · exact absurd hsize (Nat.not_le.2 (hnone tree rest hbits hfit))
    · obtain ⟨t, hdec, hleft, hstop, hframe⟩ := decompress_of_breaksOff hp hm h9 h hoff
      refine ⟨_, items, cnt, left, hoff.treeBreaksOff, congrArg Res.goOn hdec, hleft, hstop, ?_⟩
      rw [hframe]
      rfl

end

end Sys2Proof.Machine
end

section
/-! How deep HUFF_BUILD's trees are: a code of d bits needs a total weight of the Fibonacci number d + 2 (R241, R242). -/

namespace Sys2Proof.Machine

/-- The greatest code length of a tree (R244). -/
def CodeTree.depth : CodeTree → Nat
  | .leaf _ => 0
  | .node l r => max l.depth r.depth + 1

theorem CodeTree.length_le_depth {tree : CodeTree} {x : Nat × List Bool} (h : x ∈ tree.paths) : x.2.length ≤ tree.depth := by
  induction tree generalizing x with
  | leaf sym => cases List.mem_singleton.1 h; exact Nat.zero_le _
  | node l r ihl ihr =>
    rcases List.mem_append.1 h with h | h <;> obtain ⟨y, hy, rfl⟩ := List.mem_map.1 h
    · exact Nat.succ_le_succ ((ihl hy).trans (Nat.le_max_left _ _))
    · exact Nat.succ_le_succ ((ihr hy).trans (Nat.le_max_right _ _))

/-- NODE holds one tree below an index (R106). -/
theorem CodeTree.StoredAt.unique {read : Nat → Word} {lo hi lo' hi' i : Nat} {t t' : CodeTree}
    (h : t.StoredAt read lo hi i) (h' : t'.StoredAt read lo' hi' i) : t = t' := by
  induction t generalizing t' i with
  | leaf sym =>
    obtain ⟨-, -, hw⟩ := h
    cases t' with
    | leaf sym' =>
      obtain ⟨-, -, hw'⟩ := h'
      exact congrArg CodeTree.leaf (NodeEntry.leaf.inj (hw.symm.trans hw'))
    | node l r =>
      obtain ⟨-, -, _, _, _, hw', -⟩ := h'
      cases hw.symm.trans hw'
  | node l r ihl ihr =>
    obtain ⟨-, -, _, _, _, hw, hl, hr⟩ := h
    cases t' with
    | leaf sym' =>
      obtain ⟨-, -, hw'⟩ := h'
      cases hw.symm.trans hw'
    | node l' r' =>
      obtain ⟨-, -, _, _, _, hw', hl', hr'⟩ := h'
      cases hw.symm.trans hw'
      rw [ihl hl hl', ihr hr hr']

/-- The queue node carries the weight that the depth of its tree needs, and no less than `least` (R241). -/
structure QueueNode.Carries (least : Nat) (x : QueueNode) (t : CodeTree) : Prop where
  inner : Nat.fib (t.depth + 1) ≤ least
  light : least ≤ x.weight
  whole : Nat.fib (t.depth + 2) ≤ x.weight

section
variable {a c x : QueueNode} {ta tc t : CodeTree} {least : Nat}

theorem QueueNode.carries_leaf (h : 1 ≤ x.weight) (sym : Nat) : x.Carries 1 (.leaf sym) := ⟨le_rfl, h, h⟩

/-- Two nodes merged, the second the heavier one. -/
theorem QueueNode.Carries.merge (ha : a.Carries least ta) (hc : c.Carries least tc) (hac : a.weight ≤ c.weight) (nx : Nat) :
    (a.merge c nx).Carries c.weight (.node ta tc) := by
  have inner : Nat.fib (max ta.depth tc.depth + 1) ≤ a.weight := by
    rcases max_choice ta.depth tc.depth with h | h <;> rw [h]
    · exact ha.inner.trans ha.light
    · exact hc.inner.trans ha.light
  have whole : Nat.fib (max ta.depth tc.depth + 2) ≤ c.weight := by
    rcases max_choice ta.depth tc.depth with h | h <;> rw [h]
    · exact ha.whole.trans hac
    · exact hc.whole
  refine ⟨whole, Nat.le_add_left _ _, ?_⟩
  rw [CodeTree.depth, Nat.fib_add_two]
  exact Nat.add_le_add inner whole

theorem QueueNode.Carries.mono (hx : x.Carries least t) (hc : c.Carries least tc) (h : c.weight ≤ x.weight) :
    x.Carries c.weight t := ⟨hx.inner.trans hc.light, h, hx.whole⟩

theorem QueueNode.weight_le_of_not_precedes (h : ¬x.precedes a = true) : a.weight ≤ x.weight := by
  rw [precedes_iff] at h
  omega

end

/-- Each node of the queue is the root of a tree stored below `nx`, and carries its weight. -/
def RootsCarry (read : Nat → Word) (nx least : Nat) (q : List QueueNode) : Prop :=
  ∀ x ∈ q, ∃ t, RootsOf read nx [x] [t] ∧ x.Carries least t

section
variable {q rest : List QueueNode} {a c : QueueNode} {nx least : Nat} {node : Mem 64} {fill : Nat → Word}
  {out : Nat × Mem 64}

theorem RootsCarry.merge (h : RootsCarry (node.read fill) nx least q) (hfirst : FirstTwo q a c rest) (hnx : nx < 2 ^ 10) :
    RootsCarry ((node.put nx [a.mergeWord c]).read fill) (nx + 1) c.weight (a.merge c nx :: rest) := by
  have hmem (x : QueueNode) (hx : x ∈ a :: c :: rest) := h x (hfirst.perm.mem_iff.2 hx)
  obtain ⟨ta, hra, ha⟩ := hmem a (by simp)
  obtain ⟨tc, hrc, hc⟩ := hmem c (by simp)
  have hac : RootsOf (node.read fill) nx [a, c] [ta, tc] := .cons (List.forall₂_cons.1 hra).1 hrc
  refine List.forall_mem_cons.2 ⟨?_, fun x hx => ?_⟩
  · exact ⟨_, RootsOf.merge hac hnx,
      ha.merge hc (QueueNode.weight_le_of_not_precedes (hfirst.first c (by simp))) nx⟩
  · obtain ⟨t, hrt, ht⟩ := hmem x (by simp [hx])
    have hacx : RootsOf (node.read fill) nx [a, c, x] [ta, tc, t] :=
      .cons (List.forall₂_cons.1 hra).1 (.cons (List.forall₂_cons.1 hrc).1 hrt)
    exact ⟨t, (List.forall₂_cons.1 (RootsOf.merge hacx hnx)).2,
      ht.mono hc (QueueNode.weight_le_of_not_precedes (hfirst.second x hx))⟩

/-- The tree the merges end in carries the weight of the whole queue (R242). -/
theorem Merges.tree_carries (h : Merges q nx node out) (hcap : nx + q.length ≤ 2 ^ 10 + 1)
    (hroots : RootsCarry (node.read fill) nx least q) :
    ∃ (t : CodeTree) (hi : Nat), t.StoredAt (out.2.read fill) 0 hi out.1 ∧
      Nat.fib (t.depth + 2) ≤ (q.map QueueNode.weight).sum := by
  induction h generalizing least with
  | done x nx node =>
    obtain ⟨t, hrt, ht⟩ := hroots x (by simp)
    exact ⟨t, nx, (List.forall₂_cons.1 hrt).1.2, by simpa using ht.whole⟩
  | merge hfirst hrest ih =>
    have hlen := hfirst.length_eq
    obtain ⟨t, hi, ht, hfib⟩ := ih (by rw [List.length_cons]; omega) (hroots.merge hfirst (by omega))
    refine ⟨t, hi, ht, hfib.trans_eq ?_⟩
    rw [(hfirst.perm.map _).sum_eq]
    simp [QueueNode.merge, Nat.add_assoc]

end

/-! ## From the leaves -/

section
variable {f : Nat → Nat} {syms : List Nat} {node : Mem 64} {out : Nat × Mem 64}

theorem leafQueue_map_weight (f : Nat → Nat) (syms : List Nat) : (leafQueue f syms).map QueueNode.weight = syms.map f := by
  refine List.ext_getElem? fun j => ?_
  rw [List.getElem?_map, leafQueue_getElem?, Option.map_map, List.getElem?_map]
  rfl

theorem leafQueue_rootsCarry (hlt : ∀ x ∈ syms, x < 2 ^ 9) (hpos : ∀ x ∈ syms, 1 ≤ f x) (fill : Nat → Word) :
    RootsCarry ((putLeaves syms node).read fill) syms.length 1 (leafQueue f syms) := by
  intro x hx
  obtain ⟨j, hj⟩ := List.mem_iff_getElem?.1 hx
  rw [leafQueue_getElem?] at hj
  obtain ⟨y, hy, rfl⟩ := Option.map_eq_some_iff.1 hj
  obtain ⟨hlen, rfl⟩ := List.getElem?_eq_some_iff.1 hy
  have hmem := List.getElem_mem hlen
  refine ⟨.leaf syms[j], .cons ⟨hlt _ hmem, Nat.zero_le j, hlen, ?_⟩ .nil, QueueNode.carries_leaf (hpos _ hmem) _⟩
  rw [putLeaves_read syms node fill hy, NodeEntry.ofWord_toWord_leaf (hlt _ hmem)]

/-- The tree HUFF_BUILD merges, and the total count its depth needs (R241 to R243). -/
theorem Merges.tree_depth_of_leafQueue (h : Merges (leafQueue f syms) syms.length (putLeaves syms node) out)
    (hlt : ∀ x ∈ syms, x < 2 ^ 9) (hpos : ∀ x ∈ syms, 1 ≤ f x) (hcap : 2 * syms.length ≤ 2 ^ 10) (fill : Nat → Word) :
    ∃ (tree : CodeTree) (hi : Nat), tree.StoredAt (out.2.read fill) 0 hi out.1 ∧ tree.syms.Perm syms ∧
      tree.size = 2 * syms.length - 1 ∧ Nat.fib (tree.depth + 2) ≤ (syms.map f).sum := by
  obtain ⟨tree, hi, hstored, hsyms, hsize⟩ := h.tree_of_leafQueue hlt hcap fill
  obtain ⟨tree', hi', hstored', hfib⟩ :=
    h.tree_carries (by rw [leafQueue_length]; omega) (leafQueue_rootsCarry hlt hpos fill)
  obtain rfl := hstored.unique hstored'
  rw [leafQueue_map_weight] at hfib
  exact ⟨tree, hi, hstored, hsyms, hsize, hfib⟩

/-- The counts of at most 2^32 + 1 symbols keep every code short enough for CODE (R105). -/
theorem CodeTree.depth_le_of_fib {tree : CodeTree} {total : Nat} (h : Nat.fib (tree.depth + 2) ≤ total)
    (htotal : total ≤ 2 ^ 32 + 1) : tree.depth ≤ 56 := by
  by_contra hdeep
  have hmono : Nat.fib 59 ≤ Nat.fib (tree.depth + 2) := Nat.fib_mono (by omega)
  have hfib : Nat.fib 59 = 956722026041 := by norm_num
  omega

end

end Sys2Proof.Machine
end

section
/-! What COMPRESS counts and codes: the matcher's tokens, the counts of their symbols, and the tree and codes over them (R240,
R242, R244, R293). -/

namespace Sys2Proof.Machine

/-! ## The matcher's tokens -/

/-- A token of the alphabet whose fields fit TOK, its extra bits holding its extra value (R104, R110, R194). -/
structure Token.Sound (x : Token) : Prop where
  alphabet : inAlphabet x.sym = true
  xbits_le : x.xbits ≤ 14
  xval_lt : x.xval < 2 ^ x.xbits

theorem Token.sound_of_plain {v : Nat} (h : v ≤ 256) : ({ sym := v, xbits := 0, xval := 0 } : Token).Sound :=
  ⟨(inAlphabet_iff v).2 (.inl (h.trans (by decide))), Nat.zero_le _, Nat.one_pos⟩

/-- TOK gives back what it holds (R104). -/
theorem Token.Sound.ofWord_toWord {x : Token} (h : x.Sound) : Token.ofWord x.toWord = x := by
  obtain ⟨sym, xbits, xval⟩ := x
  obtain ⟨hsym, hxbits, hxval⟩ := h
  have hsym : sym < 512 := lt_symbols_of_inAlphabet hsym
  have hxval : xval < 2 ^ 14 := hxval.trans_le (Nat.pow_le_pow_right Nat.two_pos hxbits)
  have hword : (sym + xbits * 2 ^ 12 + xval * 2 ^ 16) % 2 ^ 32 = sym + xbits * 2 ^ 12 + xval * 2 ^ 16 := by
    dsimp only at hxbits
    omega
  rw [Token.ofWord_eq, Token.toWord, BitVec.toNat_ofNat]
  dsimp only at hxbits ⊢
  rw [hword]
  congr 1 <;> omega

/-- The token of a row of a code table. -/
theorem EncodedBy.sound {rows : List BucketRow} {v : Nat} {x : Token} (h : EncodedBy rows v x)
    (hrows : ∀ r ∈ rows, r.code ≠ 256 ∧ inAlphabet r.code = true ∧ r.extra ≤ 14) : x.sym ≠ 256 ∧ x.Sound := by
  obtain ⟨r, hmem, hle, hlt, rfl⟩ := h
  obtain ⟨hne, halpha, hextra⟩ := hrows r hmem
  exact ⟨hne, halpha, hextra, Nat.sub_lt_left_of_lt_add hle hlt⟩

section
variable {c : LzConfig} {b : Nat → Nat} {n : Nat}

/-- The two tokens of a match that is taken (R213, R216). -/
theorem match_encodedBy {p : Nat} (hc : c.firstBad = none) (h : takesMatch c b n p (findMatch c b n p) = true) :
    EncodedBy allLengthRows (findMatch c b n p).1 (lengthToCode (findMatch c b n p).1) ∧
      EncodedBy distanceRows (findMatch c b n p).2 (distanceToCode (findMatch c b n p).2) := by
  obtain ⟨-, hwindow, -, hmax, hmin, -⟩ := (LzConfig.firstBad_eq_none_iff c).1 hc
  obtain ⟨-, hpos⟩ := le_of_takesMatch hmin h
  obtain ⟨hlen, hdist, hdist', -⟩ := isMatch_findMatch (Nat.zero_lt_of_lt hpos)
  exact ⟨lengthToCode_encodedBy hpos ((hlen.trans (min_le_left _ _)).trans hmax),
    distanceToCode_encodedBy hdist ((hdist'.trans (min_le_left _ _)).trans hwindow)⟩

/-- The scan emits sound tokens, none of them EOS (R213, R219). -/
theorem lzScan_sound (hc : c.firstBad = none) (hb : ∀ i, b i < 256) (fuel p : Nat) :
    ∀ x ∈ lzScan c b n fuel p, x.sym ≠ 256 ∧ x.Sound := by
  induction fuel generalizing p with
  | zero => simp [lzScan]
  | succ fuel ih =>
    rw [lzScan]
    split
    · dsimp only
      split
      · rename_i ht
        obtain ⟨hl, hd⟩ := match_encodedBy hc ht
        exact List.forall_mem_cons.2 ⟨hl.sound (by decide), List.forall_mem_cons.2 ⟨hd.sound (by decide), ih _⟩⟩
      · exact List.forall_mem_cons.2 ⟨⟨(hb p).ne, Token.sound_of_plain (hb p).le⟩, ih _⟩
    · simp

theorem lzTokens_sound (hc : c.firstBad = none) (hb : ∀ i, b i < 256) : ∀ x ∈ lzTokens c b n, x.Sound := by
  refine List.forall_mem_append.2 ⟨fun x hx => (lzScan_sound hc hb n 0 x hx).2, List.forall_mem_singleton.2 ?_⟩
  exact Token.sound_of_plain le_rfl

/-- No symbol of the stream is too frequent for FREQ: EOS comes once, any other at most once a byte (R220, R222, R240). -/
theorem lzTokens_countable (hc : c.firstBad = none) (hb : ∀ i, b i < 256) (hn : n ≤ 2 ^ 32 - 1) :
    Countable ((lzTokens c b n).map Token.sym) := by
  obtain ⟨-, -, -, -, hmin, -⟩ := (LzConfig.firstBad_eq_none_iff c).1 hc
  refine ⟨List.forall_mem_map.2 fun x hx => (lzTokens_sound hc hb x hx).alphabet, fun x => ?_⟩
  rw [lzTokens, List.map_append, List.count_append]
  by_cases hx : x = 256
  · have hscan : ((lzScan c b n n 0).map Token.sym).count x = 0 := List.count_eq_zero.2 fun hmem => by
      obtain ⟨y, hy, rfl⟩ := List.mem_map.1 hmem
      exact (lzScan_sound hc hb n 0 y hy).1 hx
    have heos : ([eosToken].map Token.sym).count x ≤ 1 := List.count_le_length
    omega
  · have hscan : ((lzScan c b n n 0).map Token.sym).count x ≤ n := by
      refine List.count_le_length.trans ?_
      rw [List.length_map]
      exact lzScan_length_le hmin b n n 0
    have heos : ([eosToken].map Token.sym).count x = 0 := List.count_eq_zero.2 fun hmem =>
      hx (List.mem_singleton.1 hmem)
    omega

end

end Sys2Proof.Machine
end

section
/-! The tables of COMPRESS: what LZ_MATCH, FREQ_COUNT, HUFF_BUILD and HUFF_CODES leave, one after the other (R290, R293). -/

namespace Sys2Proof.Machine

/-! ## Distinct symbols -/

theorem eraseDups_nodup (l : List Nat) : l.eraseDups.Nodup := by
  induction h : l.length using Nat.strong_induction_on generalizing l with
  | _ k ih =>
  cases l with
  | nil => exact List.nodup_nil
  | cons a as =>
    rw [List.eraseDups_cons]
    have hlt : (as.filter fun b => !b == a).length < k := by
      rw [← h, List.length_cons]
      exact Nat.lt_succ_of_le (List.length_filter_le _ _)
    exact List.nodup_cons.2 ⟨by simp [List.mem_eraseDups], ih _ hlt _ rfl⟩

section
variable {f : Nat → Nat} {syms : List Nat}

theorem mem_usedSymbols_iff (hf : ∀ x, x < 512 → f x = syms.count x) (hs : ∀ x ∈ syms, inAlphabet x = true) {x : Nat} :
    x ∈ usedSymbols f ↔ x ∈ syms := by
  rw [usedSymbols, List.mem_filter, List.mem_range, Bool.and_eq_true, decide_eq_true_eq]
  refine ⟨fun ⟨hx, _, hpos⟩ => List.count_pos_iff.1 (hf x hx ▸ hpos), fun hx => ?_⟩
  have hlt := lt_symbols_of_inAlphabet (hs x hx)
  exact ⟨hlt, hs x hx, (hf x hlt).symm ▸ List.count_pos_iff.2 hx⟩

/-- The used symbols are the distinct ones counted (R242). -/
theorem usedSymbols_perm_eraseDups (hf : ∀ x, x < 512 → f x = syms.count x) (hs : ∀ x ∈ syms, inAlphabet x = true) :
    (usedSymbols f).Perm syms.eraseDups :=
  (List.perm_ext_iff_of_nodup (usedSymbols_nodup f) (eraseDups_nodup syms)).2 fun _ =>
    (mem_usedSymbols_iff hf hs).trans List.mem_eraseDups.symm

theorem badFreqSymbols_eq_nil (hf : ∀ x, x < 512 → f x = syms.count x) (hs : ∀ x ∈ syms, inAlphabet x = true) :
    badFreqSymbols f = [] := by
  refine List.filter_eq_nil_iff.2 fun x hx => ?_
  by_cases hmem : x ∈ syms
  · simp [hs x hmem]
  · simp [hf x (List.mem_range.1 hx), List.count_eq_zero.2 hmem]

/-- The counts sum to the number of symbols. -/
theorem sum_map_usedSymbols (hf : ∀ x, x < 512 → f x = syms.count x) (hs : ∀ x ∈ syms, inAlphabet x = true) :
    ((usedSymbols f).map f).sum = syms.length := by
  have hperm : (usedSymbols f).Perm syms.dedup :=
    (List.perm_ext_iff_of_nodup (usedSymbols_nodup f) syms.nodup_dedup).2 fun _ =>
      (mem_usedSymbols_iff hf hs).trans List.mem_dedup.symm
  rw [(hperm.map f).sum_eq, ← List.sum_map_count_dedup_eq_length syms]
  refine congrArg List.sum (List.map_congr_left fun x hx => ?_)
  exact hf x (lt_symbols_of_inAlphabet (hs x (List.mem_dedup.1 hx)))

end

/-! ## The rules -/

section
variable {s : State}

/-- What LZ_MATCH leaves: the tokens in TOK and their number in TOK_COUNT (R213). -/
def State.putTokens (s : State) (toks : List Token) : State :=
  { s with tok := s.tok.put 0 (toks.map Token.toWord), tokCount := Word.ofNat toks.length }

theorem lzMatch_of_legal {n : Nat} (hn : n ≤ s.params.srcSize) (hok : s.lzConfig.firstBad = none) :
    lzMatch n s = .ok (lzTokens s.lzConfig s.input n).length (s.putTokens (lzTokens s.lzConfig s.input n)) := by
  rcases lzMatch_cases n s with ⟨hlt, -⟩ | ⟨-, off, v, hbad, -⟩ | ⟨-, -, heq⟩
  · omega
  · cases hok.symm.trans hbad
  · exact heq

theorem freqCount_of_countable {toks : List Token} (htokens : s.tokens = toks) (h : Countable (toks.map Token.sym)) :
    ∃ k, freqCount s = .ok k (s.putFreq 0 ((countTable (toks.map Token.sym)).map (BitVec.ofNat 32))) := by
  rw [freqCount, htokens, countSymbols_of_countable h]
  exact ⟨_, rfl⟩

/-- HUFF_BUILD makes the merges of the leaves of the used symbols (R242). -/
theorem huffBuild_of_used {syms : List Nat} (h : badFreqSymbols s.freqNat = []) (hsyms : usedSymbols s.freqNat = syms)
    (hne : syms ≠ []) : ∃ out, Merges (leafQueue s.freqNat syms) syms.length (putLeaves syms s.node) out ∧
      huffBuild s = .ok (out.1, 2 * syms.length - 1, syms.length) { s with
        node := out.2
        tree := { root := Word.ofNat out.1, nodes := Word.ofNat (2 * syms.length - 1), valid := true } } := by
  have hlen : (leafQueue s.freqNat syms).length = syms.length - 1 + 1 := by
    have := List.length_pos_of_ne_nil hne
    rw [leafQueue_length]
    omega
  refine ⟨_, huffMerge_merges hlen _ _, ?_⟩
  unfold huffBuild
  simp only [State.freqNat_setTree, h, hsyms, List.length_eq_zero_iff, hne, if_false]
  rfl

/-- A tree of depth up to 56 is written to CODE (R244). -/
theorem huffCodes_of_fits {tree : CodeTree} (hv : s.tree.valid = true) (ht : s.tree? = some tree)
    (hfit : ∀ x ∈ tree.paths, x.2.length ≤ 56) :
    ∃ r, huffCodes s = .ok r (s.putCode 0 ((List.range Config.symbols).map (codeWordOf tree.paths))) := by
  have hfind : tree.paths.find? (fun x => x.2.length > Config.codeLenMax) = none :=
    List.find?_eq_none.2 fun x hx => by simpa [Config.codeLenMax] using hfit x hx
  rw [huffCodes, withTree_of_tree s _ tree hv ht, hfind]
  exact ⟨_, rfl⟩

/-- TOK holds the tokens written there (R43). -/
theorem State.tokens_putTokens {toks : List Token} (hs : ∀ x ∈ toks, x.Sound) (hlen : toks.length < 2 ^ 64) :
    (s.putTokens toks).tokens = toks := by
  refine List.ext_getElem ?_ fun j hj hj' => ?_
  · rw [State.tokens, List.length_map, List.length_range]
    exact Word.toNat_ofNat_of_lt hlen
  · have hat := s.tokAt_of_put toks (List.getElem?_eq_getElem hj')
    simp only [State.tokens, List.getElem_map, List.getElem_range]
    rw [← (hs _ (List.getElem_mem hj')).ofWord_toWord, ← hat]
    rfl

end

/-- With one leaf for each symbol CODE holds each leaf's path (R244). -/
theorem codeWordOf_of_mem {paths : List (Nat × List Bool)} (hnd : (paths.map Prod.fst).Nodup) {x : Nat × List Bool}
    (hx : x ∈ paths) : codeWordOf paths x.1 = (CodeEntry.ofPath x.2).toWord := by
  obtain ⟨before, after, rfl⟩ := List.append_of_mem hx
  refine codeWordOf_of_first fun y hy heq => ?_
  rw [List.map_append, List.map_cons, List.nodup_append'] at hnd
  exact hnd.2.2 (List.mem_map_of_mem hy) (heq ▸ List.mem_cons_self)

/-! ## The tables -/

/-- What is left of COMPRESS once its tables stand: the header, and the body through the bit writer (R290). -/
def packBody (header : List Byte) (k q : Nat) (s : State) : Res (Nat × Nat × Nat × Nat) :=
  (bwInit 9 (s.putDst 0 header)).bind fun _ s =>
  (huffSerialize s).bind fun _ s =>
  (huffEncode s).bind fun _ s =>
  (flush s).bind fun _ s =>
  .ok (s.bw.pos.toNat, k, s.bw.total.toNat, q) s

/-- The current tree is one over exactly the symbols of `syms`, with its registers, and short enough for CODE (R242, R243). -/
structure State.HoldsTree (s : State) (syms : List Nat) (tree : CodeTree) : Prop where
  regs : s.tree = { root := Word.ofNat (2 * tree.leaves - 2), nodes := Word.ofNat (2 * tree.leaves - 1), valid := true }
  stored : s.tree? = some tree
  symbols : tree.syms.Perm syms.eraseDups
  few : tree.leaves ≤ 318
  short : ∀ x ∈ tree.paths, x.2.length ≤ 56

/-- The tables of COMPRESS over the token stream `toks`: TOK, FREQ, NODE and CODE (R293). -/
structure State.Tabled (s : State) (toks : List Token) (tree : CodeTree) : Prop where
  tokens : s.tokens = toks
  tokCount : s.tokCount.toNat = toks.length
  tokAt : ∀ j x, toks[j]? = some x → s.tokAt j = x.toWord
  freqAt : ∀ x, x < 512 → (s.freqAt x).toNat = (toks.map Token.sym).count x
  built : s.HoldsTree (toks.map Token.sym) tree
  codeAt : ∀ x ∈ tree.paths, s.codeAt x.1 = (CodeEntry.ofPath x.2).toWord

/-- From `s` to `t` nothing but the tables has changed. -/
def State.SameButTables (s t : State) : Prop := ∃ tok tokCount freq node regs code,
  t = { s with tok := tok, tokCount := tokCount, freq := freq, node := node, tree := regs, code := code }

/-- FREQ holds the counts, each of which fits it (R31, R240). -/
theorem State.freqNat_of_countable (s : State) {syms : List Nat} (h : Countable syms) {x : Nat} (hx : x < 512) :
    (s.putFreq 0 ((countTable syms).map (BitVec.ofNat 32))).freqNat x = syms.count x := by
  have hle := h.2 x
  rw [State.freqNat, State.freqAt_putFreq_countTable, if_pos hx, BitVec.toNat_ofNat, Nat.mod_eq_of_lt (by omega)]

/-- HUFF_BUILD over a table of counts leaves a tree over their symbols (R241 to R243). -/
theorem huffBuild_of_counts {s : State} {syms : List Nat} (hp : s.params.legal) (hne : syms ≠ [])
    (hlen : syms.length ≤ 2 ^ 32 + 1) (hf : ∀ x, x < 512 → s.freqNat x = syms.count x)
    (hs : ∀ x ∈ syms, inAlphabet x = true) :
    ∃ tree root nodes t, huffBuild s = .ok (root, nodes, tree.leaves) t ∧ t.HoldsTree syms tree ∧
      t = { s with node := t.node, tree := t.tree } := by
  obtain ⟨used, hused⟩ : ∃ used, usedSymbols s.freqNat = used := ⟨_, rfl⟩
  have hmem (x : Nat) : x ∈ used ↔ x ∈ syms := hused ▸ mem_usedSymbols_iff hf hs
  have hne' : used ≠ [] := fun hnil => by
    obtain ⟨x, hx⟩ := List.exists_mem_of_ne_nil syms hne
    rw [← hmem, hnil] at hx
    cases hx
  have hlt : ∀ x ∈ used, x < 2 ^ 9 := fun x hx => lt_of_mem_usedSymbols (hused ▸ hx)
  have hpos : ∀ x ∈ used, 1 ≤ s.freqNat x := fun x hx =>
    (hf x (hlt x hx)).symm ▸ List.count_pos_iff.2 ((hmem x).1 hx)
  have hk : used.length ≤ 318 := hused ▸ usedSymbols_length_le s.freqNat
  obtain ⟨⟨root, node⟩, hmerges, hbuild⟩ := huffBuild_of_used (badFreqSymbols_eq_nil hf hs) hused hne'
  obtain rfl : root = 2 * used.length - 2 := hmerges.root_of_leafQueue
  obtain ⟨tree, hi, hstored, hsyms, hsize, hfib⟩ :=
    hmerges.tree_depth_of_leafQueue hlt hpos (by omega) (Config.nodeFill s.ramEpoch)
  have hleaves : used.length = tree.leaves := by
    rw [← hsyms.length_eq, CodeTree.syms, List.length_map, tree.length_paths]
  have hdepth := CodeTree.depth_le_of_fib (hfib.trans_eq (hused ▸ sum_map_usedSymbols hf hs)) hlen
  rw [hleaves] at hbuild hstored hk hsize
  have hcap : tree.size ≤ s.params.nodeCap := by
    obtain ⟨-, -, -, -, hcap, -⟩ := hp
    omega
  refine ⟨tree, _, _, _, hbuild, ⟨rfl, ?_, hsyms.trans (hused ▸ usedSymbols_perm_eraseDups hf hs), hk,
    fun x hx => (CodeTree.length_le_depth hx).trans hdepth⟩, rfl⟩
  have hroot : 2 * tree.leaves - 2 < 2 ^ 64 := by omega
  exact State.tree?_of_stored hstored rfl hroot hcap

/-- HUFF_CODES over that tree leaves the code of each of its symbols (R244). -/
theorem huffCodes_of_holdsTree {s : State} {syms : List Nat} {tree : CodeTree} (h : s.HoldsTree syms tree) :
    ∃ r code, huffCodes s = .ok r { s with code := code } ∧
      ∀ x ∈ tree.paths, ({ s with code := code } : State).codeAt x.1 = (CodeEntry.ofPath x.2).toWord := by
  obtain ⟨r, hcodes⟩ := huffCodes_of_fits (by rw [h.regs]) h.stored h.short
  refine ⟨r, _, hcodes, fun x hx => (s.codeAt_putCode_codeWordOf tree.paths x.1).trans ?_⟩
  have hlt : x.1 < 512 := State.lt_of_mem_paths_treeAt h.stored x hx
  rw [if_pos hlt, codeWordOf_of_mem (h.symbols.nodup_iff.2 (eraseDups_nodup syms)) hx]

/-- Legal operands are in R290's ranges. -/
theorem compressBadArg_eq_none_iff (p : Config.Params) (n dataType auxWidth : Nat) :
    compressBadArg p n dataType auxWidth = none ↔
      n ≤ p.srcSize ∧ dataType ≤ 1 ∧ auxWidth < 2 ^ 32 ∧ (dataType = 0 → auxWidth = 0) := by
  unfold compressBadArg
  split_ifs
  all_goals simp only [false_iff, true_iff]
  all_goals omega

/-- Once the tokens stand in TOK, the rules after LZ_MATCH make the other tables (R290, R293). -/
theorem tabled_of_tokens {s : State} {toks : List Token} (hp : s.params.legal) (hne : toks ≠ [])
    (hlen : toks.length ≤ 2 ^ 32 + 1) (hs : ∀ x ∈ toks, x.Sound) (hcount : Countable (toks.map Token.sym))
    (f : Nat × Nat × Nat → State → Res (Nat × Nat × Nat × Nat)) :
    ∃ tree root nodes t, s.SameButTables t ∧ t.Tabled toks tree ∧
      ((freqCount (s.putTokens toks)).bind fun _ s => (huffBuild s).bind fun tree s => (huffCodes s).bind fun _ s =>
        f tree s) = f (root, nodes, tree.leaves) t := by
  have htokens := State.tokens_putTokens (s := s) hs (by omega)
  obtain ⟨k, hfreq⟩ := freqCount_of_countable htokens hcount
  have hcounts := fun x => State.freqNat_of_countable (s.putTokens toks) hcount (x := x)
  obtain ⟨tree, root, nodes, t, hbuild, ht, hframe⟩ := huffBuild_of_counts
    (s := (s.putTokens toks).putFreq 0 ((countTable (toks.map Token.sym)).map (BitVec.ofNat 32))) hp
    (by simpa using hne) (by simpa using hlen) hcounts hcount.1
  obtain ⟨r, code, hcodes, hcode⟩ := huffCodes_of_holdsTree ht
  refine ⟨tree, root, nodes, { t with code := code }, ?_, ⟨?_, ?_, ?_, ?_, ?_, hcode⟩, ?_⟩
  · rw [hframe]
    exact ⟨_, _, _, _, _, _, rfl⟩
  · rw [hframe]
    exact htokens
  · rw [hframe]
    exact Word.toNat_ofNat_of_lt (by omega)
  · rw [hframe]
    exact fun j x => s.tokAt_of_put toks
  · rw [hframe]
    exact hcounts
  · exact ⟨ht.regs, ht.stored ▸ State.tree?_congr (fun _ => rfl) rfl rfl, ht.symbols, ht.few, ht.short⟩
  · rw [hfreq, Res.bind_ok, hbuild, Res.bind_ok, hcodes, Res.bind_ok]

/-- With legal operands and configuration COMPRESS makes its tables, and goes on to the body (R290, R293). -/
theorem compress_eq_packBody {s : State} {n dataType auxWidth : Nat} (hp : s.params.legal)
    (hargs : compressBadArg s.params n dataType auxWidth = none) (hok : s.lzConfig.firstBad = none) :
    ∃ tree t, s.SameButTables t ∧ t.Tabled (lzTokens s.lzConfig s.input n) tree ∧
      compress n dataType auxWidth s =
        packBody (headerBytes dataType auxWidth n) (lzTokens s.lzConfig s.input n).length tree.leaves t := by
  obtain ⟨hn, -⟩ := (compressBadArg_eq_none_iff _ _ _ _).1 hargs
  have hn32 : n ≤ 2 ^ 32 - 1 := by
    obtain ⟨-, hsrc, -⟩ := hp
    omega
  have hb : ∀ i, s.input i < 256 := fun i => (s.srcAt i).isLt
  have hlen := lzTokens_length_le hok s.input n
  obtain ⟨tree, root, nodes, t, hsame, ht, heq⟩ := tabled_of_tokens hp (by simp [lzTokens]) (by omega)
    (lzTokens_sound (n := n) hok hb) (lzTokens_countable hok hb hn32)
    fun tree => packBody (headerBytes dataType auxWidth n) (lzTokens s.lzConfig s.input n).length tree.2.2
  refine ⟨tree, t, hsame, ht, heq ▸ ?_⟩
  rw [compress, hargs]
  dsimp only
  rw [checkConfig_of_ok s hok, Res.bind_ok, lzMatch_of_legal hn hok, Res.bind_ok]
  rfl

end Sys2Proof.Machine
end

section
/-! The body of COMPRESS is one stream of writeBits calls from byte 9, then a flush (R246, R248, R290). -/

namespace Sys2Proof.Machine

/-! ## The writes of the tokens -/

theorem Res.bind_assoc {α β γ : Type} (r : Res α) (k : α → State → Res β) (l : β → State → Res γ) :
    (r.bind k).bind l = r.bind fun a s => (k a s).bind l := by cases r <;> rfl

theorem writeAll_append (ws ws' : List (Nat × Nat)) (s : State) :
    writeAll (ws ++ ws') s = (writeAll ws s).bind fun _ => writeAll ws' := by
  induction ws generalizing s with
  | nil => rfl
  | cons w ws ih =>
    obtain ⟨v, n⟩ := w
    rw [List.cons_append, writeAll, writeAll, Res.bind_assoc]
    exact congrArg _ (funext fun _ => funext ih)

/-- A token's two writes: its code, then its extra bits (R248). -/
def State.tokenWrites (s : State) (x : Token) : List (Nat × Nat) :=
  [((s.entryOf x).bits, (s.entryOf x).len), (x.xval, x.xbits)]

section
variable {s t : State}

theorem writeBits_entryOf {v n : Nat} (h : writeBits v n s = .ok () t) : t.entryOf = s.entryOf := by
  obtain ⟨_, _, rfl⟩ := (writeBits_sameButWriter v n s).1 _ _ h
  rfl

/-- With every code valid the loop of HUFF_ENCODE is the writes of its tokens (R248). -/
theorem encodeTokens_bind {α : Type} {toks : List Token} (hv : ∀ x ∈ toks, (s.entryOf x).valid = true) (i k : Nat)
    (f : State → Res α) : (encodeTokens toks i k s).bind (fun _ => f) =
      (writeAll (toks.flatMap s.tokenWrites) s).bind fun _ => f := by
  induction toks generalizing s i k with
  | nil => rfl
  | cons x toks ih =>
    obtain ⟨hvx, hv⟩ := List.forall_mem_cons.1 hv
    rw [encodeTokens_of_coded toks i k hvx]
    show _ = (writeAll (_ :: _ :: toks.flatMap s.tokenWrites) s).bind _
    rw [writeAll]
    rcases writeBits_cases (s.entryOf x).bits (s.entryOf x).len s with ⟨t, ht⟩ | ⟨-, ht⟩
    · rw [ht, Res.bind_ok, Res.bind_ok, writeAll]
      rcases writeBits_cases x.xval x.xbits t with ⟨u, hu⟩ | ⟨-, hu⟩
      · have hentry : u.entryOf = s.entryOf := (writeBits_entryOf hu).trans (writeBits_entryOf ht)
        have hwrites : u.tokenWrites = s.tokenWrites := by unfold State.tokenWrites; rw [hentry]
        rw [hu, Res.bind_ok, Res.bind_ok, ih (by rwa [hentry]), hwrites]
      · rw [hu]; rfl
    · rw [ht]; rfl

theorem huffSerialize_of_tree {tree : CodeTree} (hvalid : s.tree.valid = true) (htree : s.tree? = some tree) :
    huffSerialize s = (writeAll tree.serialWrites s).bind fun _ t => .ok (totalBits tree.serialWrites) t := by
  rw [huffSerialize, withTree_of_tree s _ tree hvalid htree]

/-- HUFF_SERIALIZE and HUFF_ENCODE, one after the other, are one sequence of writes (R246, R248). -/
theorem huffSerialize_huffEncode_bind {α : Type} {tree : CodeTree} (hvalid : s.tree.valid = true)
    (htree : s.tree? = some tree) (hv : ∀ x ∈ s.tokens, (s.entryOf x).valid = true) (f : State → Res α) :
    ((huffSerialize s).bind fun _ t => (huffEncode t).bind fun _ => f) =
      (writeAll (tree.serialWrites ++ s.tokens.flatMap s.tokenWrites) s).bind fun _ => f := by
  rw [huffSerialize_of_tree hvalid htree, writeAll_append, Res.bind_assoc, Res.bind_assoc]
  obtain ⟨dst, bw, h | ⟨n, h⟩⟩ := writeAll_cases tree.serialWrites s
  · rw [h]
    exact encodeTokens_bind (s := { s with dst := dst, bw := bw }) hv 0 0 f
  · rw [h]; rfl

/-- BW_INIT o (R161). -/
def State.writerAt (s : State) (o : Nat) : State :=
  { s with bw := { pos := Word.ofNat o, acc := 0, cnt := 0, total := 0 } }

/-- The body of COMPRESS as one stream (R290). -/
theorem packBody_eq_writeStream {tree : CodeTree} (hp : s.params.legal) (hvalid : s.tree.valid = true)
    (htree : s.tree? = some tree) (hv : ∀ x ∈ s.tokens, (s.entryOf x).valid = true) (header : List Byte) (k q : Nat) :
    packBody header k q s =
      (writeStream 9 (tree.serialWrites ++ s.tokens.flatMap s.tokenWrites) (s.putDst 0 header)).bind fun _ t =>
        .ok (t.bw.pos.toNat, k, t.bw.total.toNat, q) t := by
  obtain ⟨-, -, h9, -⟩ := hp
  have htree' : ((s.putDst 0 header).writerAt 9).tree? = some tree :=
    htree ▸ State.tree?_congr (fun _ => rfl) rfl rfl
  rw [packBody, writeStream, bwInit_of_le 9 (s.putDst 0 header) h9, Res.bind_ok, Res.bind_ok, Res.bind_assoc]
  exact huffSerialize_huffEncode_bind (s := (s.putDst 0 header).writerAt 9) hvalid htree' hv _

end

/-! ## A stream, with and without room -/

section
variable {s : State} {o : Nat} {ws : List (Nat × Nat)}

theorem writeStream_eq (ho : o ≤ s.params.dstSize) (ws : List (Nat × Nat)) :
    writeStream o ws s = (writeAll ws (s.writerAt o)).bind fun _ t => flush t := by
  rw [writeStream, bwInit_of_le o s ho]
  rfl

theorem State.writerAt_writer (hp : s.params.legal) (ho : o ≤ s.params.dstSize) :
    (s.writerAt o).writerInv ∧ (s.writerAt o).bw.pos.toNat = o ∧ (s.writerAt o).writerBits o = [] := by
  obtain ⟨t, hinit, -, hinv, hpos, -, hbits⟩ := bwInit_writer hp ho
  cases (bwInit_of_le o s ho).symm.trans hinit
  exact ⟨hinv, hpos, hbits⟩

theorem State.fits_writerAt (hp : s.params.legal) (ho : o ≤ s.params.dstSize) (k : Nat) :
    (s.writerAt o).Fits k ↔ o + k / 8 ≤ s.params.dstSize := by
  obtain ⟨-, hpos, -⟩ := State.writerAt_writer hp ho
  have hcnt : (s.writerAt o).bw.cnt.toNat = 0 := rfl
  rw [State.Fits, hpos, hcnt, Nat.zero_add]
  rfl

/-- A stream stores from byte `o` on (R161, R162, R164). -/
theorem writeStream_keeps (hp : s.params.legal) (ho : o ≤ s.params.dstSize) (ws : List (Nat × Nat)) :
    (writeStream o ws s).All fun t =>
      (∃ dst bw, t = { s with dst := dst, bw := bw }) ∧ ∀ j, j < o → t.dstAt j = s.dstAt j := by
  obtain ⟨-, hpos, -⟩ := State.writerAt_writer hp ho
  rw [writeStream_eq ho]
  refine Res.All.and ?_ (Res.All.mono (P := (s.writerAt o).StoresPassed) ?_ fun t ht j hj =>
    ht.outside j (.inl (hpos.symm ▸ hj)))
  · refine Res.All.bind ?_ fun _ t ⟨_, _, ht⟩ => ?_
    · obtain ⟨dst, bw, h | ⟨_, h⟩⟩ := writeAll_cases ws (s.writerAt o)
      · exact .of_ok h ⟨dst, bw, rfl⟩
      · exact .of_raised h ⟨dst, bw, rfl⟩
    · refine (flush_sameButWriter t).mono fun u ⟨dst, bw, hu⟩ => ⟨dst, bw, ?_⟩
      rw [hu, ht]
  · exact (writeAll_storesPassed (s := s.writerAt o) hp ws).bind fun _ t ht =>
      (flush_storesPassed (ht.params ▸ hp)).storesPassed_trans ht

/-- With room for the pending bits flush rounds the position up to a byte (R164). -/
theorem flush_of_room (hcnt : s.bw.cnt.toNat ≤ 7)
    (hroom : (8 * s.bw.pos.toNat + s.bw.cnt.toNat + 7) / 8 ≤ s.params.dstSize) :
    ∃ t, flush s = .ok () t ∧ t.bw =
      { pos := Word.ofNat ((8 * s.bw.pos.toNat + s.bw.cnt.toNat + 7) / 8), acc := 0, cnt := 0, total := s.bw.total } := by
  rcases Nat.eq_zero_or_pos s.bw.cnt.toNat with hempty | hpending
  · have hpos : (8 * s.bw.pos.toNat + s.bw.cnt.toNat + 7) / 8 = s.bw.pos.toNat := by omega
    rw [hpos, Word.ofNat_toNat]
    exact ⟨_, flush_of_empty hempty, rfl⟩
  · have hpos : (8 * s.bw.pos.toNat + s.bw.cnt.toNat + 7) / 8 = s.bw.pos.toNat + 1 := by omega
    rw [hpos] at hroom ⊢
    exact ⟨_, flush_of_pending hpending hroom, rfl⟩

/-- With room for its bytes a stream completes (R164, R166). -/
theorem writeStream_of_fits (hp : s.params.legal) (hfit : o + (totalBits ws + 7) / 8 ≤ s.params.dstSize) :
    ∃ t, writeStream o ws s = .ok () t ∧
      t.bw = { pos := Word.ofNat (o + (totalBits ws + 7) / 8), acc := 0, cnt := 0, total := Word.ofNat (totalBits ws) } ∧
      t.dstBits o t.bw.pos.toNat =
        bitsOfWrites ws ++ List.replicate (8 * ((totalBits ws + 7) / 8) - totalBits ws) false := by
  have ho : o ≤ s.params.dstSize := by omega
  obtain ⟨hinv, hpos, hbits⟩ := State.writerAt_writer hp ho
  obtain ⟨w, hwrite, hw⟩ := writeAll_wrote ws (s := s.writerAt o) hp hinv
    ((State.fits_writerAt hp ho _).2 (by omega))
  have hwpos : 8 * w.bw.pos.toNat + w.bw.cnt.toNat = 8 * o + totalBits ws := by
    rw [hw.bitPos, hpos, bitsOfWrites_length]
    rfl
  have hend : (8 * w.bw.pos.toNat + w.bw.cnt.toNat + 7) / 8 = o + (totalBits ws + 7) / 8 := by omega
  have hwcnt : w.bw.cnt.toNat ≤ 7 := hw.inv.1
  have hlegal : w.params.legal := hw.params ▸ hp
  obtain ⟨t, hflush, hbw⟩ := flush_of_room hwcnt (by rw [hend, hw.params]; exact hfit)
  obtain ⟨htpos, hstream⟩ := flush_spec hlegal hw.inv hflush
  have htotal : w.bw.total = Word.ofNat (totalBits ws) := by
    rw [hw.total, bitsOfWrites_length]
    exact BitVec.zero_add _
  have hzeros : 8 * t.bw.pos.toNat - (8 * w.bw.pos.toNat + w.bw.cnt.toNat) =
      8 * ((totalBits ws + 7) / 8) - totalBits ws := by omega
  refine ⟨t, by rw [writeStream_eq ho, hwrite, Res.bind_ok, hflush], by rw [hbw, hend, htotal], ?_⟩
  rw [hstream o (by omega), hw.stream o hpos.ge, hbits, List.nil_append, hzeros]

/-- Without room a stream stops at its first writeBits without room, or at the flush, and keeps the bits before (R162, R164). -/
theorem writeStream_of_full (hp : s.params.legal) (ho : o ≤ s.params.dstSize)
    (hfull : s.params.dstSize < o + (totalBits ws + 7) / 8) :
    ∃ t before after k, writeStream o ws s = .raised .capacityExceeded t.bw.pos.toNat k t ∧ ws = before ++ after ∧
      o + totalBits before / 8 ≤ s.params.dstSize ∧ t.writerBits o = bitsOfWrites before ∧
      t.bw.total = Word.ofNat (totalBits before) ∧
      ((after = [] ∧ k = 0) ∨ ∃ v rest, after = (v, k) :: rest ∧ s.params.dstSize < o + (totalBits before + k) / 8) := by
  obtain ⟨hinv, hpos, hbits⟩ := State.writerAt_writer hp ho
  have hroom := State.fits_writerAt hp ho
  have hwrote {t : State} {before : List (Nat × Nat)} (hw : (s.writerAt o).Wrote t (bitsOfWrites before)) :
      t.writerBits o = bitsOfWrites before ∧ t.bw.total = Word.ofNat (totalBits before) := by
    refine ⟨by rw [hw.stream o hpos.ge, hbits, List.nil_append], ?_⟩
    rw [hw.total, bitsOfWrites_length]
    exact BitVec.zero_add _
  by_cases hfit : (s.writerAt o).Fits (totalBits ws)
  · obtain ⟨w, hwrite, hw⟩ := writeAll_wrote ws (s := s.writerAt o) hp hinv hfit
    have hwpos : 8 * w.bw.pos.toNat + w.bw.cnt.toNat = 8 * o + totalBits ws := by
      rw [hw.bitPos, hpos, bitsOfWrites_length]
      rfl
    have hwcnt := hw.inv.1
    rw [hroom] at hfit
    have hflush := flush_of_full (s := w) (by omega) (by rw [hw.params]; show s.params.dstSize < _; omega)
    obtain ⟨hstream, htotal⟩ := hwrote hw
    exact ⟨w, ws, [], 0, by rw [writeStream_eq ho, hwrite, Res.bind_ok, hflush], (List.append_nil ws).symm, hfit, hstream,
      htotal, .inl ⟨rfl, rfl⟩⟩
  · obtain ⟨t, before, v, k, after, hsplit, hbefore, hstop, hwrite, hw⟩ :=
      writeAll_stops ws (s := s.writerAt o) hp hinv hfit
    obtain ⟨hstream, htotal⟩ := hwrote hw
    rw [hroom] at hbefore hstop
    exact ⟨t, before, (v, k) :: after, k, by rw [writeStream_eq ho, hwrite, Res.bind_raised], hsplit, hbefore, hstream,
      htotal, .inr ⟨v, after, rfl, Nat.not_le.1 hstop⟩⟩

end

end Sys2Proof.Machine
end

section
/-! COMPRESS, case by case: bad operands, room for the container or none, and what stands in the tables and in DST (R290 to
R293). -/

namespace Sys2Proof.Machine

/-! ## Codes and items -/

/-- CODE gives back a path of at most 56 bits (R105). -/
theorem CodeEntry.ofWord_toWord_ofPath {h : List Bool} (hlen : h.length ≤ 56) :
    CodeEntry.ofWord (CodeEntry.ofPath h).toWord = CodeEntry.ofPath h := by
  have hbits : valBits h < 2 ^ 56 := (valBits_lt h).trans_le (Nat.pow_le_pow_right Nat.two_pos hlen)
  have hword : (valBits h + h.length * 2 ^ 56 + 2 ^ 63) % 2 ^ 64 = valBits h + h.length * 2 ^ 56 + 2 ^ 63 := by omega
  rw [CodeEntry.ofWord, CodeEntry.ofPath, CodeEntry.toWord, BitVec.toNat_ofNat, Bool.toNat_true, Nat.one_mul, hword]
  have hvalid : bitField (valBits h + h.length * 2 ^ 56 + 2 ^ 63) 63 1 = 1 := by unfold bitField; omega
  have hlen' : bitField (valBits h + h.length * 2 ^ 56 + 2 ^ 63) 56 6 = h.length := by unfold bitField; omega
  have hbits' : bitField (valBits h + h.length * 2 ^ 56 + 2 ^ 63) 0 56 = valBits h := by unfold bitField; omega
  rw [hvalid, hlen', hbits']
  rfl

section
variable {s t : State} {toks : List Token} {tree : CodeTree} {x : Token}

/-- The tables are those of a state with the same memories and registers for them. -/
theorem State.Tabled.congr (h : s.Tabled toks tree)
    (hsame : (t.tok, t.tokCount, t.freq, t.node, t.tree, t.code, t.params, t.ramEpoch) =
      (s.tok, s.tokCount, s.freq, s.node, s.tree, s.code, s.params, s.ramEpoch)) : t.Tabled toks tree := by
  obtain ⟨htokens, hcount, htok, hfreq, ⟨hregs, hstored, hsymbols, hfew, hshort⟩, hcode⟩ := h
  cases s
  cases t
  simp only [Prod.mk.injEq] at hsame
  obtain ⟨rfl, rfl, rfl, rfl, rfl, rfl, rfl, rfl⟩ := hsame
  exact ⟨htokens, hcount, htok, hfreq,
    ⟨hregs, hstored ▸ State.tree?_congr (fun _ => rfl) rfl rfl, hsymbols, hfew, hshort⟩, hcode⟩

/-- Each token's symbol has a leaf, and its entry in CODE is that leaf's path (R244, R293). -/
theorem State.Tabled.entryOf (h : s.Tabled toks tree) (hx : x ∈ toks) :
    ∃ path, (x.sym, path) ∈ tree.paths ∧ path.length ≤ 56 ∧ s.entryOf x = CodeEntry.ofPath path := by
  have hsym : x.sym ∈ tree.syms := h.built.symbols.mem_iff.2 (List.mem_eraseDups.2 (List.mem_map_of_mem hx))
  obtain ⟨⟨_, path⟩, hpath, rfl⟩ := List.mem_map.1 hsym
  have hshort := h.built.short _ hpath
  exact ⟨path, hpath, hshort,
    (congrArg CodeEntry.ofWord (h.codeAt _ hpath)).trans (CodeEntry.ofWord_toWord_ofPath hshort)⟩

theorem State.Tabled.leaves_eq (h : s.Tabled toks tree) : (toks.map Token.sym).eraseDups.length = tree.leaves := by
  rw [← h.built.symbols.length_eq, CodeTree.syms, List.length_map, tree.length_paths]

/-- The writeBits calls of the container's body (R290). -/
def State.bodyWrites (s : State) (tree : CodeTree) (toks : List Token) : List (Nat × Nat) :=
  tree.serialWrites ++ toks.flatMap s.tokenWrites

theorem State.totalBits_tokenWrites (s : State) (toks : List Token) :
    totalBits (toks.flatMap s.tokenWrites) = (toks.map fun x => (s.entryOf x).len + x.xbits).sum := by
  induction toks with
  | nil => rfl
  | cons x toks ih =>
    rw [List.flatMap_cons, totalBits_append, ih, List.map_cons, List.sum_cons]
    rfl

theorem State.bitsOfWrites_tokenWrites (s : State) (toks : List Token) :
    bitsOfWrites (toks.flatMap s.tokenWrites) = toks.flatMap s.tokenBits := by
  induction toks with
  | nil => rfl
  | cons x toks ih =>
    rw [List.flatMap_cons, bitsOfWrites_append, ih, List.flatMap_cons, State.tokenBits_eq]
    simp [State.tokenWrites]

end

/-! ## The header -/

theorem ofNat_byteOf (v k : Nat) : BitVec.ofNat 8 (byteOf v k) = BitVec.ofNat 8 (v / 2 ^ (8 * k)) := by
  refine BitVec.eq_of_toNat_eq ?_
  rw [BitVec.toNat_ofNat, BitVec.toNat_ofNat]
  exact Nat.mod_mod _ _

/-- The header's three fields at the beginning of DST (R113, R291). -/
def State.HeaderIs (s : State) (dataType auxWidth n : Nat) : Prop :=
  s.dstAt 0 = BitVec.ofNat 8 dataType ∧ ∀ j, j < 4 →
    s.dstAt (1 + j) = BitVec.ofNat 8 (auxWidth / 2 ^ (8 * j)) ∧ s.dstAt (5 + j) = BitVec.ofNat 8 (n / 2 ^ (8 * j))

theorem State.headerIs_putDst (s : State) (dataType auxWidth n : Nat) :
    (s.putDst 0 (headerBytes dataType auxWidth n)).HeaderIs dataType auxWidth n := by
  have hlen : (headerBytes dataType auxWidth n).length = 9 := by simp [headerBytes]
  have hat (i : Nat) (hi : i < 9) : (s.putDst 0 (headerBytes dataType auxWidth n)).dstAt i =
      (headerBytes dataType auxWidth n)[i] := by
    rw [State.dstAt_putDst, if_pos (by omega), List.getD_eq_getElem _ _ (by omega)]
    rfl
  refine ⟨hat 0 (by decide), fun j hj => ?_⟩
  rw [hat _ (by omega), hat _ (by omega), ← ofNat_byteOf, ← ofNat_byteOf]
  constructor
  · simp [headerBytes, Nat.add_comm 1, hj]
  · simp [headerBytes, Nat.add_comm 5]

theorem State.HeaderIs.congr {s t : State} {dataType auxWidth n : Nat} (h : s.HeaderIs dataType auxWidth n)
    (hsame : ∀ j, j < 9 → t.dstAt j = s.dstAt j) : t.HeaderIs dataType auxWidth n := by
  obtain ⟨hdata, hfields⟩ := h
  refine ⟨(hsame 0 (by decide)).trans hdata, fun j hj => ?_⟩
  rw [hsame _ (by omega), hsame _ (by omega)]
  exact hfields j hj

/-! ## The command -/

/-- The tables and the header stand as the completed steps of COMPRESS leave them, and BUSY = 0 (R293). -/
structure State.Packed (t : State) (toks : List Token) (tree : CodeTree) (dataType auxWidth n : Nat) : Prop where
  idle : t.phase = .idle
  tables : t.Tabled toks tree
  header : t.HeaderIs dataType auxWidth n

/-- The container is whole: its bits and zero padding from byte 9 on, the writer behind them, and the results (R290, R291). -/
structure State.PackedWhole (t : State) (toks : List Token) (tree : CodeTree) : Prop where
  done : t.status.done = true
  res : t.res = { r0 := Word.ofNat (9 + (totalBits (t.bodyWrites tree toks) + 7) / 8), r1 := Word.ofNat toks.length,
                  r2 := Word.ofNat (totalBits (t.bodyWrites tree toks)), r3 := Word.ofNat tree.leaves }
  writer : t.bw = { pos := Word.ofNat (9 + (totalBits (t.bodyWrites tree toks) + 7) / 8), acc := 0, cnt := 0,
                    total := Word.ofNat (totalBits (t.bodyWrites tree toks)) }
  bits : t.dstBits 9 t.bw.pos.toNat = bitsOfWrites (t.bodyWrites tree toks) ++
    List.replicate (8 * ((totalBits (t.bodyWrites tree toks) + 7) / 8) - totalBits (t.bodyWrites tree toks)) false

/-- The container did not fit: the writes `before` are in, and the next one, or the flush, raised (R162, R164, R290). -/
structure State.PackedPart (t : State) (toks : List Token) (tree : CodeTree) : Prop where
  done : t.status.done = false
  code : t.status.code = some .capacityExceeded
  errPos : t.errPos = t.bw.pos
  stopped : ∃ before after k, t.bodyWrites tree toks = before ++ after ∧ 9 + totalBits before / 8 ≤ t.params.dstSize ∧
    t.writerBits 9 = bitsOfWrites before ∧ t.bw.total = Word.ofNat (totalBits before) ∧ t.errSym = Word.ofNat k ∧
    ((after = [] ∧ k = 0) ∨ ∃ v rest, after = (v, k) :: rest ∧ t.params.dstSize < 9 + (totalBits before + k) / 8)

theorem exec_compress (s : State) : exec .compress s = ((compress s.arg0 s.arg1 s.arg2 s).bind fun r t =>
    .ok { r0 := some r.1, r1 := some r.2.1, r2 := some r.2.2.1, r3 := some r.2.2.2 } t).finish := rfl

section
variable {s : State}

/-- Bad operands come first (R290). -/
theorem exec_compress_of_badArg {i v : Nat} (h : compressBadArg s.params s.arg0 s.arg1 s.arg2 = some (i, v)) :
    exec .compress s = .next (s.raise .badArgument i v) := by
  rw [exec_compress, compress, h]
  rfl

/-- Then the first bad configuration register (R211, R290). -/
theorem exec_compress_of_badConfig {off v : Nat} (hargs : compressBadArg s.params s.arg0 s.arg1 s.arg2 = none)
    (h : s.lzConfig.firstBad = some (off, v)) : exec .compress s = .next (s.raise .badArgument off v) := by
  rw [exec_compress, compress, hargs]
  dsimp only
  rw [checkConfig_of_bad s off v h]
  rfl

/-- With legal operands and configuration the tables and the header stand, and the container is whole when it fits (R290). -/
theorem exec_compress_of_legal (hp : s.params.legal) (hargs : compressBadArg s.params s.arg0 s.arg1 s.arg2 = none)
    (hok : s.lzConfig.firstBad = none) :
    ∃ t tree, exec .compress s = .next t ∧ t.params = s.params ∧
      t.Packed (lzTokens s.lzConfig s.input s.arg0) tree s.arg1 s.arg2 s.arg0 ∧
      (9 + (totalBits (t.bodyWrites tree (lzTokens s.lzConfig s.input s.arg0)) + 7) / 8 ≤ s.params.dstSize →
        t.PackedWhole (lzTokens s.lzConfig s.input s.arg0) tree) ∧
      (s.params.dstSize < 9 + (totalBits (t.bodyWrites tree (lzTokens s.lzConfig s.input s.arg0)) + 7) / 8 →
        t.PackedPart (lzTokens s.lzConfig s.input s.arg0) tree) := by
  obtain ⟨tree, u, hsame, htab, hcompress⟩ := compress_eq_packBody hp hargs hok
  generalize lzTokens s.lzConfig s.input s.arg0 = toks at *
  have hparams : u.params = s.params := by
    obtain ⟨_, _, _, _, _, _, rfl⟩ := hsame
    rfl
  have h9 : 9 ≤ s.params.dstSize := hp.2.2.1
  have hv : ∀ x ∈ u.tokens, (u.entryOf x).valid = true := fun x hx => by
    obtain ⟨path, -, -, hentry⟩ := htab.entryOf (htab.tokens ▸ hx)
    rw [hentry]
    rfl
  rw [packBody_eq_writeStream (hparams ▸ hp) (by rw [htab.built.regs]) htab.built.stored hv, htab.tokens] at hcompress
  have hheader := u.headerIs_putDst s.arg1 s.arg2 s.arg0
  have hkeep := writeStream_keeps (s := u.putDst 0 (headerBytes s.arg1 s.arg2 s.arg0)) (hparams ▸ hp) (hparams ▸ h9)
    (tree.serialWrites ++ toks.flatMap u.tokenWrites)
  rw [exec_compress, hcompress]
  rcases le_or_gt (9 + (totalBits (tree.serialWrites ++ toks.flatMap u.tokenWrites) + 7) / 8) s.params.dstSize with hfit | hfull
  · obtain ⟨w, hw, hbw, hbits⟩ := writeStream_of_fits (s := u.putDst 0 (headerBytes s.arg1 s.arg2 s.arg0)) (hparams ▸ hp)
      (hparams ▸ hfit)
    obtain ⟨⟨dst, bw, rfl⟩, hkept⟩ := hkeep.1 _ _ hw
    rw [hw]
    refine ⟨_, tree, rfl, hparams, ⟨rfl, htab.congr rfl, hheader.congr hkept⟩, fun _ => ⟨rfl, ?_, hbw, hbits⟩,
      fun hfull => absurd hfit (Nat.not_le.2 hfull)⟩
    show Quad.mk (Word.ofNat bw.pos.toNat) (Word.ofNat toks.length) (Word.ofNat bw.total.toNat) (Word.ofNat tree.leaves) = _
    rw [Word.ofNat_toNat, Word.ofNat_toNat, show bw = _ from hbw]
    rfl
  · obtain ⟨w, before, after, k, hw, hsplit, hbefore, hstream, htotal, hstop⟩ :=
      writeStream_of_full (s := u.putDst 0 (headerBytes s.arg1 s.arg2 s.arg0)) (hparams ▸ hp) (hparams ▸ h9) (hparams ▸ hfull)
    obtain ⟨⟨dst, bw, rfl⟩, hkept⟩ := hkeep.2 _ _ _ _ hw
    rw [hw]
    exact ⟨_, tree, rfl, hparams, ⟨rfl, htab.congr rfl, hheader.congr hkept⟩,
      fun hfit => absurd hfit (Nat.not_le.2 hfull), fun _ => ⟨rfl, rfl, Word.ofNat_toNat _, before, after, k, hsplit, hbefore,
        hstream, htotal, rfl, hstop⟩⟩

end

end Sys2Proof.Machine
end

section
/-! COMPRESS: when it completes and what it leaves, in the words of R290, R291 and R293. -/

namespace Sys2Proof.Machine

/-- A path's entry as a word (R105). -/
theorem CodeEntry.toWord_ofPath (h : List Bool) :
    (CodeEntry.ofPath h).toWord = BitVec.ofNat 64 (valBits h + h.length * 2 ^ 56 + 2 ^ 63) := by
  rw [ofPath, toWord, Bool.toNat_true, Nat.one_mul]

section
variable {s : State} {toks : List Token} {tree : CodeTree}

/-- LEN and BITS of a token's entry (R105). -/
theorem State.entryOf_len (s : State) (x : Token) : (s.entryOf x).len = (s.codeAt x.sym).toNat / 2 ^ 56 % 2 ^ 6 := by
  rw [entryOf, CodeEntry.ofWord_eq]

theorem State.entryOf_bits (s : State) (x : Token) : (s.entryOf x).bits = (s.codeAt x.sym).toNat % 2 ^ 56 := by
  rw [entryOf, CodeEntry.ofWord_eq]

/-- The container's bits: 11q - 1 for the tree, then the payload (R247, R291). -/
theorem State.Tabled.totalBits_bodyWrites (h : s.Tabled toks tree) : totalBits (s.bodyWrites tree toks) =
    (11 * (toks.map Token.sym).eraseDups.length - 1) +
      (toks.map fun x => (s.codeAt x.sym).toNat / 2 ^ 56 % 2 ^ 6 + x.xbits).sum := by
  simp only [← State.entryOf_len]
  rw [State.bodyWrites, totalBits_append, tree.totalBits_serialWrites, s.totalBits_tokenWrites, h.leaves_eq]

/-- A code takes at most 56 bits, and extra bits at most 14 (R6, R190, R191). -/
theorem State.Tabled.totalBits_le (h : s.Tabled toks tree) (hs : ∀ x ∈ toks, x.Sound) :
    totalBits (s.bodyWrites tree toks) ≤ 3497 + 70 * toks.length := by
  have hsum : (toks.map fun x => (s.entryOf x).len + x.xbits).sum ≤ toks.length * 70 := by
    have := List.sum_le_card_nsmul (toks.map fun x => (s.entryOf x).len + x.xbits) 70 <| List.forall_mem_map.2 fun x hx => by
      obtain ⟨path, -, hshort, hentry⟩ := h.entryOf hx
      rw [hentry]
      exact Nat.add_le_add hshort (hs x hx).xbits_le
    simpa using this
  have hfew := h.built.few
  rw [State.bodyWrites, totalBits_append, tree.totalBits_serialWrites, s.totalBits_tokenWrites]
  omega

theorem State.bodyWrites_eq (s : State) (tree : CodeTree) (toks : List Token) : s.bodyWrites tree toks =
    tree.serialWrites ++ toks.flatMap fun x =>
      [((s.codeAt x.sym).toNat % 2 ^ 56, (s.codeAt x.sym).toNat / 2 ^ 56 % 2 ^ 6), (x.xval, x.xbits)] := by
  simp only [← State.entryOf_len, ← State.entryOf_bits]
  rfl

end

/-- Settles O44: the operand checks in order; then the tables stand, and the stream of writes fits or stops. -/
theorem compressCompletes : Obligations.CompressCompletes := by
  intro s hp n dt aux window minMatch maxMatch maxChain lazyDiv badConfig toks
  have hbad : s.lzConfig.firstBad = badConfig := LzConfig.firstBad_eq _
  refine ⟨fun hn hdt haux haux0 hcfg => ?_, fun h => ?_, fun hn h => ?_, fun hn hdt h => ?_,
    fun hn hdt haux haux0 off v h => ?_⟩
  · have hok := hbad.trans hcfg
    obtain ⟨t, tree, hexec, hparams, ⟨hidle, htab, hdata, hfields⟩, hwhole, hpart⟩ :=
      exec_compress_of_legal hp ((compressBadArg_eq_none_iff _ _ _ _).2 ⟨hn, hdt, haux, haux0⟩) hok
    refine ⟨t, tree, hexec, hidle, ?_⟩
    intro syms q len size writes fits
    have hwrites : t.bodyWrites tree toks = writes := t.bodyWrites_eq tree toks
    have hsize : 9 + (totalBits (t.bodyWrites tree toks) + 7) / 8 = size :=
      congrArg (fun bits => 9 + (bits + 7) / 8) htab.totalBits_bodyWrites
    have hregs := htab.built.regs
    rw [← htab.leaves_eq] at hregs
    have hle : totalBits (t.bodyWrites tree toks) ≤ 3497 + 70 * toks.length :=
      htab.totalBits_le (lzTokens_sound hok fun i => (s.srcAt i).isLt)
    have hlen : toks.length ≤ n + 1 := lzTokens_length_le hok s.input n
    refine ⟨htab.tokCount, htab.tokAt, htab.freqAt, hregs, htab.built.stored, htab.built.symbols,
      fun x hx => (htab.codeAt x hx).trans (CodeEntry.toWord_ofPath _), hdata, hfields, fun hfit => ?_, fun hfull => ?_, ?_⟩
    · have hw := hwhole (hsize.trans_le hfit)
      exact ⟨hw.done, (congrArg Quad.r0 hw.res).trans (congrArg Word.ofNat hsize)⟩
    · have hw := hpart (hfull.trans_eq hsize.symm)
      obtain ⟨before, after, k, hsplit, hbefore, hstream, htotal, hsym, hstop⟩ := hw.stopped
      refine ⟨hw.done, hw.code, hw.errPos, before, after, hwrites.symm.trans hsplit, hbefore.trans_eq (by rw [hparams]),
        hstream, htotal, ?_⟩
      rcases hstop with ⟨hafter, rfl⟩ | ⟨v, rest, hafter, hover⟩
      · exact .inl ⟨hafter, hsym⟩
      · exact .inr ⟨v, k, rest, hafter, Nat.not_le.2 (hparams.symm ▸ hover), hsym⟩
    · rw [← hsize]
      omega
  · exact exec_compress_of_badArg (if_pos h)
  · exact exec_compress_of_badArg ((if_neg (Nat.not_lt.2 hn)).trans (if_pos h))
  · refine exec_compress_of_badArg ((if_neg (Nat.not_lt.2 hn)).trans ((if_neg (Nat.not_lt.2 hdt)).trans ?_))
    by_cases haux : 2 ^ 32 ≤ aux
    · exact if_pos (show 2 ^ 32 - 1 < aux by omega)
    · exact (if_neg (show ¬2 ^ 32 - 1 < aux by omega)).trans (if_pos (h.resolve_left haux))
  · exact exec_compress_of_badConfig ((compressBadArg_eq_none_iff _ _ _ _).2 ⟨hn, hdt, haux, haux0⟩) (hbad.trans h)

/-- A COMPRESS that is done had legal operands and configuration, and its container is whole (R290). -/
theorem exec_compress_of_done {s t : State} (hp : s.params.legal) (h : exec .compress s = .next t)
    (hdone : t.status.done = true) :
    compressBadArg s.params s.arg0 s.arg1 s.arg2 = none ∧ s.lzConfig.firstBad = none ∧
      ∃ tree, t.Packed (lzTokens s.lzConfig s.input s.arg0) tree s.arg1 s.arg2 s.arg0 ∧
        t.PackedWhole (lzTokens s.lzConfig s.input s.arg0) tree := by
  cases hargs : compressBadArg s.params s.arg0 s.arg1 s.arg2 with
  | some x =>
    cases (exec_compress_of_badArg hargs).symm.trans h
    cases hdone
  | none =>
    cases hok : s.lzConfig.firstBad with
    | some x =>
      cases (exec_compress_of_badConfig hargs hok).symm.trans h
      cases hdone
    | none =>
      obtain ⟨u, tree, hexec, -, hpacked, hwhole, hpart⟩ := exec_compress_of_legal hp hargs hok
      cases hexec.symm.trans h
      refine ⟨rfl, rfl, tree, hpacked, hwhole (Nat.le_of_not_lt fun hfull => ?_)⟩
      cases (hpart hfull).done.symm.trans hdone

/-- Settles O45: the tables, the header and the bits of a whole container. -/
theorem containerSizeLaw : Obligations.ContainerSizeLaw := by
  intro s t hp h hdone n toks syms q len item bits
  obtain ⟨-, -, tree, ⟨-, htab, hheader⟩, hw⟩ := exec_compress_of_done hp h hdone
  change t.Tabled toks tree at htab
  change t.PackedWhole toks tree at hw
  have hbits : totalBits (t.bodyWrites tree toks) = bits := htab.totalBits_bodyWrites
  have hq : tree.leaves = q := htab.leaves_eq.symm
  have hitem : t.tokenBits = item := funext fun x => by
    rw [State.tokenBits_eq, State.entryOf_len, State.entryOf_bits]
  obtain ⟨-, hres, hbw, hstream⟩ := hw
  rw [hbits] at hres hbw hstream
  rw [State.bodyWrites, bitsOfWrites_append, tree.bitsOfWrites_serialWrites, State.bitsOfWrites_tokenWrites, hitem] at hstream
  refine ⟨hq ▸ hres, by rw [hbw, hres], by rw [hbw, hres], by rw [hbw], by rw [hbw], htab.tokCount, htab.tokAt, htab.freqAt,
    hq ▸ htab.built.regs, ⟨tree, htab.built.stored, htab.built.symbols,
      fun x hx => (htab.codeAt x hx).trans (CodeEntry.toWord_ofPath _), hstream⟩, hheader⟩

end Sys2Proof.Machine
end

section
/-! The decode loop of DECOMPRESS on a stream that COMPRESS made: each token's bits give back its bytes (R292, R295 to R298). -/

namespace Sys2Proof.Machine

/-! ## One symbol -/

/-- In the decode loop, no turn pending: `p` bytes of `src` stand in DST, and `bits` are left to read (R295; log 4, 6, 7). -/
structure State.Decodes (s : State) (tree : CodeTree) (src : Nat → Byte) (stop : Word) (dec : DecodeVars) (p : Nat)
    (bits : List Bool) : Prop where
  phase : s.phase = .decoding
  turns : s.pending = []
  legal : s.params.legal
  reader : s.readerInv
  stored : s.tree? = some tree
  stop : s.br.stop = stop
  dec : s.dec = dec
  bits : s.readerBits = bits
  outLen : s.outLen.toNat = p
  output : ∀ j, j < p → s.dstAt j = src j

section
variable {s t : State} {tree : CodeTree} {src : Nat → Byte} {stop : Word} {dec : DecodeVars} {p : Nat} {sym : Nat}
  {path xtra rest bits : List Bool}

theorem State.Decodes.consumed {n : Nat} (h : s.Decodes tree src stop dec p bits) (hc : s.Consumed t n) :
    t.Decodes tree src stop dec p (bits.drop n) where
  phase := by obtain ⟨_, rfl⟩ := hc.frame; exact h.phase
  turns := by obtain ⟨_, rfl⟩ := hc.frame; exact h.turns
  legal := hc.params ▸ h.legal
  reader := hc.inv
  stored := by
    obtain ⟨_, rfl⟩ := hc.frame
    exact h.stored ▸ State.tree?_congr (fun _ => rfl) rfl rfl
  stop := hc.stop.trans h.stop
  dec := by obtain ⟨_, rfl⟩ := hc.frame; exact h.dec
  bits := by rw [hc.bits, h.bits]
  outLen := by obtain ⟨_, rfl⟩ := hc.frame; exact h.outLen
  output := by obtain ⟨_, rfl⟩ := hc.frame; exact h.output

/-- On a leaf's code the step runs that leaf's symbol, with the bits behind the code to read (R273, R295). -/
theorem State.Decodes.step (h : s.Decodes tree src stop dec p (path ++ rest)) (hpath : (sym, path) ∈ tree.paths) :
    ∃ t, Machine.step s = runSymbol sym t ∧ t.Decodes tree src stop dec p rest := by
  have hfuel : path.length < s.bitsLeft + 1 := by
    rw [← s.readerBits_length, h.bits, List.length_append]
    omega
  obtain ⟨t, hdescend, hc⟩ := descend_of_path h.legal h.reader h.stored hpath h.bits hfuel (d := 0)
  have ht := h.consumed hc
  rw [List.drop_left] at ht
  refine ⟨t, ?_, ht⟩
  rw [step_of_nil s h.turns, engineStep_of_decoding h.phase, decodePass_of_ok hdescend]

/-- A literal in its place gives its byte (R296). -/
theorem State.Decodes.literal (h : s.Decodes tree src stop dec p (path ++ rest)) (hpath : ((src p).toNat, path) ∈ tree.paths)
    (hwait : dec.pendingLen = none) (hp : p < dec.len) (hlen : dec.len < 2 ^ 64) :
    ∃ t, Machine.step s = .next t ∧ t.Decodes tree src stop dec (p + 1) rest := by
  obtain ⟨t, hstep, ht⟩ := h.step hpath
  have hout := ht.outLen
  rw [runSymbol_lit, execLit_of_ne (by rw [ht.dec, hwait]) (by rw [ht.dec, hout]; exact hp.ne)] at hstep
  refine ⟨_, hstep, ht.phase, ht.turns, ht.legal, ht.reader, ?_, ht.stop, ht.dec, ht.bits, ?_, fun j hj => ?_⟩
  · exact ht.stored ▸ State.tree?_congr (fun _ => rfl) rfl rfl
  · rw [State.appendByte_outLen_toNat _ (by omega), hout]
  · rw [State.dstAt_appendByte, hout]
    split
    · subst j; rfl
    · exact ht.output j (by omega)

/-- A length symbol in its place: its length waits (R298; log 7). -/
theorem State.Decodes.length {lb le v : Nat} (h : s.Decodes tree src stop dec p (path ++ (bitsOf le v ++ rest)))
    (hpath : (sym, path) ∈ tree.paths) (hsym : 257 ≤ sym) (hsym' : sym ≤ 285) (hwait : dec.pendingLen = none)
    (hbase : codeToLengthBase sym = some (lb, le)) (hv : v < 2 ^ le) :
    ∃ t, Machine.step s = .next t ∧ t.Decodes tree src stop { dec with pendingLen := some (lb + v) } p rest := by
  obtain ⟨t, hstep, ht⟩ := h.step hpath
  have hlen : (bitsOf le v).length = le := bitsOf_length le v
  have henough : le ≤ t.readerBits.length := by rw [ht.bits, List.length_append, hlen]; exact Nat.le_add_right _ _
  obtain ⟨u, hc, hexec⟩ := execLength_of_enough ht.legal ht.reader (by rw [ht.dec, hwait]) hbase henough
  have hu := ht.consumed hc
  rw [List.drop_left' hlen] at hu
  rw [runSymbol_length hsym hsym', hexec, ht.bits, List.take_left' hlen, valBits_bitsOf, Nat.mod_eq_of_lt hv, ht.dec] at hstep
  exact ⟨_, hstep, hu.phase, hu.turns, hu.legal, hu.reader, hu.stored ▸ State.tree?_congr (fun _ => rfl) rfl rfl, hu.stop,
    rfl, hu.bits, hu.outLen, hu.output⟩

/-- Where `src` repeats what stands `d` before, it repeats the last `d` bytes before `p` (R216, R298). -/
theorem eq_mod_of_repeats {d len i : Nat} (hd : 1 ≤ d) (hd' : d ≤ p) (h : ∀ i, i < len → src (p - d + i) = src (p + i))
    (hi : i < len) : src (p + i) = src (p - d + i % d) := by
  induction i using Nat.strong_induction_on with
  | _ i ih =>
    rw [← h i hi]
    rcases Nat.lt_or_ge i d with hlt | hge
    · rw [Nat.mod_eq_of_lt hlt]
    · rw [Nat.mod_eq_sub_mod hge, ← ih (i - d) (by omega) (by omega)]
      congr 1
      omega

/-- A distance symbol after its length copies the bytes that `src` repeats (R298). -/
theorem State.Decodes.distance {db de v len : Nat} (h : s.Decodes tree src stop dec p (path ++ (bitsOf de v ++ rest)))
    (hpath : (sym, path) ∈ tree.paths) (hsym : 300 ≤ sym) (hsym' : sym ≤ 331) (hwait : dec.pendingLen = some len)
    (hbase : codeToDistanceBase sym = some (db, de)) (hv : v < 2 ^ de) (hdist : 1 ≤ db + v) (hdist' : db + v ≤ p)
    (hlen : p + len ≤ dec.len) (hsize : dec.len < 2 ^ 64) (hagree : ∀ i, i < len → src (p - (db + v) + i) = src (p + i)) :
    ∃ t, Machine.step s = .next t ∧ t.Decodes tree src stop { dec with pendingLen := none } (p + len) rest := by
  obtain ⟨t, hstep, ht⟩ := h.step hpath
  have hbits : (bitsOf de v).length = de := bitsOf_length de v
  have henough : de ≤ t.readerBits.length := by rw [ht.bits, List.length_append, hbits]; exact Nat.le_add_right _ _
  obtain ⟨u, hc, hexec⟩ := execDistance_of_enough ht.legal ht.reader (by rw [ht.dec, hwait]) hbase henough
  have hu := ht.consumed hc
  have hout := hu.outLen
  rw [List.drop_left' hbits] at hu
  rw [runSymbol_distance hsym hsym', hexec, ht.bits, List.take_left' hbits, valBits_bitsOf, Nat.mod_eq_of_lt hv,
    copyBack_of_fits (by rw [hout]; exact hdist') (by rw [hout, hu.dec]; exact hlen), hu.dec] at hstep
  have hlt : u.outLen.toNat + len < 2 ^ 64 := by omega
  obtain ⟨dst, outLen, hcopy⟩ := copyBytes_frame (db + v) len u
  have hcopied {j : Nat} (hj : j < len) := copyBytes_dstAt hdist (by rw [hout]; exact hdist') hlt hj
  have hkept {j : Nat} (hj : j < u.outLen.toNat) := copyBytes_stores (db + v) len hlt (.inl hj)
  have hend := copyBytes_outLen (db + v) len u hlt
  rw [hcopy] at hstep hend
  simp only [hcopy, hout] at hcopied hkept
  refine ⟨_, hstep, hu.phase, hu.turns, hu.legal, hu.reader, hu.stored ▸ State.tree?_congr (fun _ => rfl) rfl rfl, hu.stop,
    rfl, hu.bits, hend.trans (by rw [hout]), fun j hj => ?_⟩
  rcases Nat.lt_or_ge j p with hold | hnew
  · exact (hkept hold).trans (hu.output j hold)
  · obtain ⟨i, rfl⟩ := Nat.exists_eq_add_of_le hnew
    have hmod := Nat.mod_lt i hdist
    refine (hcopied (j := i) (by omega)).trans ((hu.output _ (by omega)).trans ?_)
    exact (eq_mod_of_repeats hdist hdist' hagree (by omega)).symm

/-- EOS at the output's end completes the command (R297). -/
theorem State.Decodes.eos (h : s.Decodes tree src stop dec p (path ++ rest)) (hpath : (256, path) ∈ tree.paths)
    (hwait : dec.pendingLen = none) (hp : p = dec.len) (hrest : rest.length < 8) :
    ∃ t, Machine.step s = .next t ∧ t.phase = .idle ∧ t.status.done = true ∧ (∀ j, j < p → t.dstAt j = src j) ∧
      t.res = { r0 := Word.ofNat dec.len, r1 := Word.ofNat dec.dataType, r2 := Word.ofNat dec.auxWidth, r3 := stop } := by
  obtain ⟨t, hstep, ht⟩ := h.step hpath
  have hpos : t.br.pos = stop := by
    obtain ⟨hcnt, -, hle, -⟩ := ht.reader
    have hleft := t.readerBits_length
    rw [ht.bits, State.bitsLeft] at hleft
    rw [← ht.stop]
    exact BitVec.eq_of_toNat_eq (by omega)
  rw [runSymbol_eos, execEos_of_eq (by rw [ht.dec, hwait]) (by rw [ht.outLen, ht.dec, hp]), ht.dec, hpos] at hstep
  exact ⟨_, hstep, rfl, rfl, ht.output, rfl⟩

end

/-! ## The token stream -/

/-- The token's bits by `item` are its symbol's code in the tree, then its extra bits (R115). -/
def CodedBy (tree : CodeTree) (item : Token → List Bool) (x : Token) : Prop :=
  ∃ path, (x.sym, path) ∈ tree.paths ∧ item x = path ++ bitsOf x.xbits x.xval

/-- DECOMPRESS is done: the original bytes stand in DST, and the results are the header's and the container's end (R294, R297). -/
structure State.Restored (t : State) (src : Nat → Byte) (stop : Word) (dec : DecodeVars) : Prop where
  idle : t.phase = .idle
  done : t.status.done = true
  output : ∀ j, j < dec.len → t.dstAt j = src j
  res : t.res = { r0 := Word.ofNat dec.len, r1 := Word.ofNat dec.dataType, r2 := Word.ofNat dec.auxWidth, r3 := stop }

theorem symbol_of_codeToLengthBase {sym b e : Nat} (h : codeToLengthBase sym = some (b, e)) : 257 ≤ sym ∧ sym ≤ 285 := by
  by_contra hout
  cases ((codeToLengthBase_eq_none_iff sym).2 (by omega)).symm.trans h

theorem symbol_of_codeToDistanceBase {sym b e : Nat} (h : codeToDistanceBase sym = some (b, e)) : 300 ≤ sym ∧ sym ≤ 331 := by
  by_contra hout
  cases ((codeToDistanceBase_eq_none_iff sym).2 (by omega)).symm.trans h

section
variable {s : State} {tree : CodeTree} {src : Nat → Byte} {stop : Word} {dec : DecodeVars} {p l d : Nat}
  {rest : List Bool} {item : Token → List Bool}

/-- A literal token gives its byte in a step (R219, R296). -/
theorem State.Decodes.literalToken (h : s.Decodes tree src stop dec p (item (literalToken (src p).toNat) ++ rest))
    (hitem : CodedBy tree item (Machine.literalToken (src p).toNat)) (hwait : dec.pendingLen = none) (hp : p < dec.len)
    (hlen : dec.len < 2 ^ 64) : ∃ t, Machine.step s = .next t ∧ t.Decodes tree src stop dec (p + 1) rest := by
  obtain ⟨path, hpath, hbits⟩ := hitem
  rw [hbits, List.append_assoc] at h
  exact h.literal hpath hwait hp hlen

/-- A match's two tokens give its bytes in two steps (R216, R298; log 7). -/
theorem State.Decodes.matchTokens (hl : EncodedBy allLengthRows l (lengthToCode l))
    (hd : EncodedBy distanceRows d (distanceToCode d)) (hiteml : CodedBy tree item (lengthToCode l))
    (hitemd : CodedBy tree item (distanceToCode d))
    (h : s.Decodes tree src stop dec p (item (lengthToCode l) ++ (item (distanceToCode d) ++ rest)))
    (hwait : dec.pendingLen = none) (hdist : 1 ≤ d) (hdist' : d ≤ p) (hlen : p + l ≤ dec.len) (hsize : dec.len < 2 ^ 64)
    (hagree : ∀ i, i < l → src (p - d + i) = src (p + i)) :
    ∃ t u, Machine.step s = .next t ∧ Machine.step t = .next u ∧ u.Decodes tree src stop dec (p + l) rest := by
  obtain ⟨pathl, hpathl, hbitsl⟩ := hiteml
  obtain ⟨pathd, hpathd, hbitsd⟩ := hitemd
  obtain ⟨hlx, lb, hlb, hleq⟩ := hl.roundTrip lengthCodes_nodup
  obtain ⟨hdx, db, hdb, hdeq⟩ := hd.roundTrip distanceCodes_nodup
  rw [← codeToLengthBase_eq] at hlb
  rw [← codeToDistanceBase_eq] at hdb
  obtain ⟨hl1, hl2⟩ := symbol_of_codeToLengthBase hlb
  obtain ⟨hd1, hd2⟩ := symbol_of_codeToDistanceBase hdb
  rw [hbitsl, hbitsd, List.append_assoc] at h
  obtain ⟨t, hstep, ht⟩ := h.length hpathl hl1 hl2 hwait hlb hlx
  rw [List.append_assoc, hleq] at ht
  obtain ⟨u, hstep', hu⟩ := ht.distance hpathd hd1 hd2 rfl hdb hdx (hdist.trans_eq hdeq.symm) (hdeq.trans_le hdist') hlen hsize
    (by rwa [hdeq])
  refine ⟨t, u, hstep, hstep', ?_⟩
  rwa [← hwait] at hu

/-- From the tokens of what is left of the input the decode loop restores it (R213, R223, R292). -/
theorem State.Decodes.tokensFrom {c : LzConfig} {pad : List Bool} (hc : c.firstBad = none)
    (hitem : ∀ x ∈ tokensFrom c (fun i => (src i).toNat) dec.len p, CodedBy tree item x) (hp : p ≤ dec.len)
    (hwait : dec.pendingLen = none) (hsize : dec.len < 2 ^ 64) (hpad : pad.length < 8)
    (h : s.Decodes tree src stop dec p ((Machine.tokensFrom c (fun i => (src i).toNat) dec.len p).flatMap item ++ pad)) :
    ∃ k t, Sys2Proof.core.run k s = .next t ∧ t.Restored src stop dec := by
  obtain ⟨-, -, -, -, hmin, -⟩ := (LzConfig.firstBad_eq_none_iff c).1 hc
  induction hk : dec.len - p using Nat.strong_induction_on generalizing s p with
  | _ k ih =>
  rcases hp.lt_or_eq with hlt | hend
  · rw [tokensFrom_of_lt hmin hlt] at h hitem
    split at h
    · rename_i ht
      rw [if_pos ht] at hitem
      obtain ⟨hl, hd⟩ := match_encodedBy hc ht
      obtain ⟨-, hpos⟩ := le_of_takesMatch hmin ht
      obtain ⟨hlen, hdist, hdist', hagree⟩ := isMatch_findMatch (Nat.zero_lt_of_lt hpos)
      rw [List.forall_mem_cons, List.forall_mem_cons] at hitem
      obtain ⟨hiteml, hitemd, hitem⟩ := hitem
      rw [List.flatMap_cons, List.flatMap_cons, List.append_assoc, List.append_assoc] at h
      obtain ⟨t, u, hstep, hstep', hu⟩ := State.Decodes.matchTokens hl hd hiteml hitemd h hwait hdist (by omega) (by omega)
        hsize fun i hi => BitVec.eq_of_toNat_eq (hagree i hi)
      obtain ⟨k, v, hrun, hv⟩ := ih _ (by omega) hitem (by omega) hu rfl
      exact ⟨k + 1 + 1, v, by rw [core_run_succ hstep, core_run_succ hstep', hrun], hv⟩
    · rename_i ht
      rw [if_neg ht, List.forall_mem_cons] at hitem
      obtain ⟨hlit, hitem⟩ := hitem
      rw [List.flatMap_cons, List.append_assoc] at h
      obtain ⟨t, hstep, ht⟩ := h.literalToken hlit hwait hlt hsize
      obtain ⟨k, v, hrun, hv⟩ := ih _ (by omega) hitem (by omega) ht rfl
      exact ⟨k + 1, v, by rw [core_run_succ hstep, hrun], hv⟩
  · rw [tokensFrom_of_ge hend.ge] at h hitem
    obtain ⟨path, hpath, hbits⟩ := List.forall_mem_singleton.1 hitem
    rw [List.flatMap_singleton, hbits, List.append_assoc] at h
    obtain ⟨t, hstep, hidle, hdone, hout, hres⟩ := h.eos hpath hwait hend hpad
    exact ⟨1, t, by rw [core_run_succ hstep]; rfl, hidle, hdone, hend ▸ hout, hres⟩

end

end Sys2Proof.Machine
end

section
/-! DECOMPRESS of a container that COMPRESS made restores the original bytes (R292). -/

namespace Sys2Proof.Machine

/-! ## The container as DECOMPRESS finds it -/

theorem CodeTree.symbolsFit_of_paths {tree : CodeTree} (h : ∀ x ∈ tree.paths, x.1 < 2 ^ 9) : tree.symbolsFit = true := by
  induction tree with
  | leaf sym => exact decide_eq_true (h (sym, []) (List.mem_singleton_self _))
  | node l r ihl ihr =>
    have hl : ∀ x ∈ l.paths, x.1 < 2 ^ 9 := fun x hx => h (x.1, false :: x.2) (by simp [paths, hx])
    have hr : ∀ x ∈ r.paths, x.1 < 2 ^ 9 := fun x hx => h (x.1, true :: x.2) (by simp [paths, hx])
    exact Bool.and_eq_true_iff.2 ⟨ihl hl, ihr hr⟩

/-- Four bytes little-endian are their number (R74). -/
theorem State.srcLE32_of_bytes {s : State} {i v : Nat} (hv : v < 2 ^ 32)
    (h : ∀ j, j < 4 → s.srcAt (i + j) = BitVec.ofNat 8 (v / 2 ^ (8 * j))) : s.srcLE32 i = v := by
  have h0 := h 0 (by decide)
  rw [Nat.add_zero] at h0
  rw [State.srcLE32, h0, h 1 (by decide), h 2 (by decide), h 3 (by decide)]
  simp only [BitVec.toNat_ofNat]
  omega

section
variable {t : State} {toks : List Token} {tree : CodeTree}

/-- The bits HUFF_ENCODE writes for a token are its leaf's path and its extra bits (R115, R244). -/
theorem State.Tabled.codedBy (h : t.Tabled toks tree) : ∀ x ∈ toks, CodedBy tree t.tokenBits x := fun x hx => by
  obtain ⟨path, hpath, -, hentry⟩ := h.entryOf hx
  refine ⟨path, hpath, ?_⟩
  rw [State.tokenBits_eq, hentry]
  exact congrArg (· ++ bitsOf x.xbits x.xval) (bitsOf_valBits path)

/-- A whole container's bits: the tree, the tokens, and less than a byte of padding (R113, R291). -/
theorem State.PackedWhole.dstBits_eq (h : t.PackedWhole toks tree) : ∃ pad : List Bool, pad.length < 8 ∧
    t.dstBits 9 t.bw.pos.toNat = tree.serialBits ++ (toks.flatMap t.tokenBits ++ pad) := by
  have hbits := h.bits
  generalize totalBits (t.bodyWrites tree toks) = total at hbits
  rw [State.bodyWrites, bitsOfWrites_append, tree.bitsOfWrites_serialWrites, State.bitsOfWrites_tokenWrites,
    List.append_assoc] at hbits
  refine ⟨List.replicate (8 * ((total + 7) / 8) - total) false, ?_, hbits⟩
  rw [List.length_replicate]
  omega

/-- The container is longer than its header (R291). -/
theorem State.PackedWhole.nine_le (h : t.PackedWhole toks tree) (hlt : totalBits (t.bodyWrites tree toks) < 2 ^ 64) :
    9 ≤ t.bw.pos.toNat := by
  rw [h.writer, Word.toNat_ofNat_of_lt (by omega)]
  omega

end

/-- DECOMPRESS of a copied container enters its loop with nothing but the tokens' bits to read (R292, R294). -/
theorem decodes_of_container {t u : State} {toks : List Token} {tree : CodeTree} {dataType auxWidth n : Nat} (hp : u.params.legal)
    (hpacked : t.Packed toks tree dataType auxWidth n) (hwhole : t.PackedWhole toks tree)
    (hdt : dataType ≤ 1) (haux : auxWidth < 2 ^ 32) (hn : n < 2 ^ 32) (h9 : 9 ≤ t.bw.pos.toNat)
    (hturns : u.pending = []) (hsrc : t.bw.pos.toNat ≤ u.params.srcSize) (hdst : n ≤ u.params.dstSize)
    (hcopy : ∀ j, j < t.bw.pos.toNat → u.srcAt j = t.dstAt j) (src : Nat → Byte) :
    ∃ (v : State) (pad : List Bool), decompress t.bw.pos.toNat u = .ok () v ∧ pad.length < 8 ∧
      v.Decodes tree src t.bw.pos { len := n, dataType := dataType, auxWidth := auxWidth, pendingLen := none } 0
        (toks.flatMap t.tokenBits ++ pad) := by
  obtain ⟨-, htab, hdata, hfields⟩ := hpacked
  obtain ⟨pad, hpad, hbits⟩ := hwhole.dstBits_eq
  have hsrcBits := State.srcBits_eq_dstBits (s := u) (t := t) (a := 9) (o := 9) (len := t.bw.pos.toNat - 9) fun j hj =>
    hcopy (9 + j) (by omega)
  rw [Nat.add_sub_cancel' h9, hbits] at hsrcBits
  have hlen : u.srcLE32 5 = n := State.srcLE32_of_bytes hn fun j hj => (hcopy _ (by omega)).trans (hfields j hj).2
  have hwidth : u.srcLE32 1 = auxWidth := State.srcLE32_of_bytes haux fun j hj => (hcopy _ (by omega)).trans (hfields j hj).1
  have htype : (u.srcAt 0).toNat = dataType := by
    rw [hcopy 0 (by omega), hdata, BitVec.toNat_ofNat]
    omega
  have hsize : tree.size ≤ u.params.nodeCap := by
    have hfew := htab.built.few
    obtain ⟨-, -, -, -, hcap, -⟩ := hp
    rw [tree.size_eq]
    omega
  obtain ⟨v, hdec, hstored, hreader, hrest, hstop, hframe⟩ := decompress_of_tree hp hsrc h9 (hlen.trans_le hdst) hsrcBits hsize
    (CodeTree.symbolsFit_of_paths (State.lt_of_mem_paths_treeAt htab.built.stored))
  rw [hlen, hwidth, htype] at hframe
  refine ⟨v, pad, hdec, hpad, ?_, ?_, ?_, hreader, hstored, hstop.trans (Word.ofNat_toNat _), ?_, hrest, ?_,
    fun j hj => absurd hj (Nat.not_lt_zero j)⟩
  all_goals rw [hframe]
  · exact hturns
  · exact hp
  · rfl

/-- Settles O52: the first step rebuilds the tree, and the decode loop runs through the tokens of the input. -/
theorem containerRoundTrip : Obligations.ContainerRoundTrip := by
  intro s t u hp hpu hexec hdone hphase hcmd hturns harg hsrc hdst hcopy
  obtain ⟨hargs, hok, tree, hpacked, hwhole⟩ := exec_compress_of_done hp hexec hdone
  obtain ⟨hn, hdt, haux, -⟩ := (compressBadArg_eq_none_iff _ _ _ _).1 hargs
  have hn32 : s.arg0 < 2 ^ 32 := by
    obtain ⟨-, hsize, -⟩ := hp
    omega
  have hn64 : s.arg0 < 2 ^ 64 := by omega
  have hpos : t.bw.pos = t.res.r0 := by rw [hwhole.writer, hwhole.res]
  have hbits := hpacked.tables.totalBits_le (lzTokens_sound hok fun i => (s.srcAt i).isLt)
  have hlen := lzTokens_length_le hok s.input s.arg0
  rw [← hpos] at harg hsrc hcopy
  obtain ⟨v, pad, hdec, hpad, hv⟩ := decodes_of_container hpu hpacked hwhole hdt haux hn32 (hwhole.nine_le (by omega)) hturns
    hsrc hdst hcopy s.srcAt
  have hstep : step u = .next v := by
    rw [stepRunsLatchedCommand u u .decompress (.inr (.inr ⟨hturns, rfl⟩)) hphase (by rw [hcmd]; rfl), exec_decompress,
      State.arg0, harg, hdec, Res.goOn_ok]
  obtain ⟨k, w, hrun, hw⟩ := State.Decodes.tokensFrom (src := s.srcAt) (p := 0)
    (dec := { len := s.arg0, dataType := s.arg1, auxWidth := s.arg2, pendingLen := none }) hok hpacked.tables.codedBy
    (Nat.zero_le _) rfl hn64 hpad hv
  refine ⟨k + 1, w, by rw [core_run_succ hstep, hrun], hw.idle, hw.done, hw.output, hw.res.trans ?_⟩
  rw [← hpos]
  dsimp only
  rw [State.arg0, State.arg1, State.arg2, Word.ofNat_toNat, Word.ofNat_toNat, Word.ofNat_toNat]

end Sys2Proof.Machine
end

section
/-! Power-on and soft reset (R23, R350 to R352). -/

namespace Sys2Proof.Machine

/-! ## The power-on state -/

/-- The registers whose power-on value is not 0: ID and the configuration (R22, R32, R351). -/
def nonzeroAtPowerOn : List Reg := [.id, .cfgWindow, .cfgMinMatch, .cfgMaxMatch, .cfgMaxChain, .cfgLazyDiv]

/-- STATUS at power-on: BUSY and every flag are 0 and no error is named (R24, R351). -/
theorem State.powerOn_statusWord (p : Config.Params) : (State.powerOn p).statusWord = 0 := by
  simp [State.statusWord, State.busy, State.powerOn, errorCode]

theorem State.powerOn_regValue_eq_zero (p : Config.Params) {r : Reg} (hr : r ∉ nonzeroAtPowerOn) :
    (State.powerOn p).regValue r = 0 := by
  cases r with
  | id | cfgWindow | cfgMinMatch | cfgMaxMatch | cfgMaxChain | cfgLazyDiv => exact absurd (by decide) hr
  | status => exact State.powerOn_statusWord p
  | _ => rfl

/-- A soft reset of a machine that has just been powered on changes nothing (R351, R352). -/
theorem State.softReset_powerOn (p : Config.Params) : (State.powerOn p).softReset = State.powerOn p := rfl

theorem State.powerOn_inv {p : Config.Params} (hp : p.legal) : (State.powerOn p).Inv :=
  State.softReset_powerOn p ▸ softReset_inv (State.powerOn_unitInv hp)

theorem State.powerOn_treeInv (p : Config.Params) : (State.powerOn p).TreeInv :=
  State.softReset_powerOn p ▸ softReset_treeInv (State.powerOn p)

/-! ## Soft reset -/

/-- A soft reset while BUSY = 1 keeps SRC alone and starts a new epoch (R352; log 17). -/
theorem State.softReset_of_busy {s : State} (h : s.busy = true) :
    s.softReset = { State.powerOn s.params with
      src := s.src, pending := s.pending, portData := s.portData, draws := s.draws, ramEpoch := s.ramEpoch + 1 } :=
  if_pos h

/-- A soft reset while BUSY = 0 keeps every memory and its epoch (R352). -/
theorem State.softReset_of_not_busy {s : State} (h : s.busy = false) :
    s.softReset = { State.powerOn s.params with
      src := s.src, dst := s.dst, tok := s.tok, freq := s.freq, code := s.code, node := s.node
      pending := s.pending, portData := s.portData, draws := s.draws, ramEpoch := s.ramEpoch } :=
  if_neg (Bool.eq_false_iff.1 h)

theorem State.softReset_params (s : State) : s.softReset.params = s.params := by
  unfold State.softReset; split <;> rfl

theorem State.softReset_pending (s : State) : s.softReset.pending = s.pending := by
  unfold State.softReset; split <;> rfl

theorem State.softReset_srcAt (s : State) (i : Nat) : s.softReset.srcAt i = s.srcAt i := by
  unfold State.softReset; split <;> rfl

/-- Every register takes its power-on value (R352). -/
theorem State.softReset_regValue (s : State) (r : Reg) : s.softReset.regValue r = (State.powerOn s.params).regValue r := by
  cases hb : s.busy with
  | true => rw [State.softReset_of_busy hb]; cases r <;> rfl
  | false => rw [State.softReset_of_not_busy hb]; cases r <;> rfl

theorem State.softReset_elem_of_not_busy {s : State} (h : s.busy = false) (m : MemId) (i : Nat) :
    s.softReset.elem m i = s.elem m i := by
  rw [State.softReset_of_not_busy h]
  cases m <;> rfl

/-- No element of the five other memories is listed after a soft reset while BUSY = 1, so each reads as its fill at the
new epoch (R352; log 17). -/
theorem State.softReset_fills_of_busy {s : State} (h : s.busy = true) (i : Nat) :
    s.softReset.dstAt i = Config.dstFill (s.ramEpoch + 1) i ∧ s.softReset.tokAt i = Config.tokFill (s.ramEpoch + 1) i ∧
      s.softReset.freqAt i = Config.freqFill (s.ramEpoch + 1) i ∧
      s.softReset.codeAt i = Config.codeFill (s.ramEpoch + 1) i ∧
      s.softReset.nodeAt i = Config.nodeFill (s.ramEpoch + 1) i := by
  rw [State.softReset_of_busy h]
  exact ⟨rfl, rfl, rfl, rfl, rfl⟩

/-! ## The write to CTRL -/

theorem writeCtrl_of_set {v : Word} (h : v.getLsbD 0 = true) (s : State) : writeCtrl v s = s.softReset := if_pos h

theorem writeCtrl_of_clear {v : Word} (h : v.getLsbD 0 = false) (s : State) : writeCtrl v s = s :=
  if_neg (Bool.eq_false_iff.1 h)

/-- A write to CTRL is honoured whether the Engine is BUSY or not (R23, R80). -/
theorem hostWrite_ctrl (v : Word) (s : State) : hostWrite (.reg .ctrl) v s = writeCtrl v s :=
  if_neg (by simp)

theorem step_of_write_ctrl {s : State} {v : Word} {rest : List Turn} (hp : s.pending = .port (.write 0x008 8 v) :: rest) :
    step s = .next (writeCtrl v { s with pending := rest }) := by
  rw [step_of_write hp ((accessTarget_eq_reg_iff _ _ _ .ctrl).2 ⟨rfl, rfl⟩), hostWrite_ctrl]

/-! ## The statements -/

/-- Settles O17: the registers one by one, and memories in which nothing is listed. -/
theorem powerOnState : Obligations.PowerOnState := fun p =>
  ⟨rfl, rfl, rfl, rfl, rfl, rfl, fun _ => State.powerOn_regValue_eq_zero p, rfl, fun _ => ⟨rfl, rfl, rfl, rfl, rfl, rfl⟩⟩

/-- Settles O55: a power-on state is its own soft reset, which meets both invariants. -/
theorem powerOnMeetsInvariants : Obligations.PowerOnMeetsInvariants :=
  have hdefault : Config.Params.default.legal := by decide
  ⟨fun p hp => ⟨State.powerOn_inv hp, State.powerOn_treeInv p⟩, State.powerOn_inv hdefault, State.powerOn_treeInv _⟩

/-- Settles O16: the write reaches CTRL at any time; bit 0 decides between a soft reset, whose two cases are known field by
field, and nothing. -/
theorem softReset : Obligations.SoftReset := by
  intro s v rest hp
  let u : State := { s with pending := rest }
  refine ⟨fun hv => ⟨u.softReset, ?_, u.softReset_regValue, u.softReset_phase, u.softReset_params, u.softReset_pending,
    u.softReset_srcAt, fun hidle => ?_, fun hbusy => ?_⟩, fun hv => ?_⟩
  · rw [step_of_write_ctrl hp, writeCtrl_of_set hv]
  · exact State.softReset_elem_of_not_busy (s := u) ((State.busy_eq_false_iff u).2 hidle)
  · exact State.softReset_fills_of_busy (s := u) ((State.busy_eq_true_iff u).2 hbusy)
  · rw [step_of_write_ctrl hp, writeCtrl_of_clear hv]

end Sys2Proof.Machine
end
